-- ==== Sys2Proof/Word.lean ====
section
/-! DEFINITION. The widths of the block's values (R11): 64-bit words, 8-bit bytes, and the 4-bit and
6-bit counters of R32 and R31. -/

namespace Sys2Proof

/-- `Bits64` (R11): a 64-bit unsigned value. -/
abbrev Word := BitVec 64

/-- A byte (R11): bit 7 is its high-order bit. -/
abbrev Byte := BitVec 8

/-- The width of CNT (R32) and of STATUS.COUNT (R22). -/
abbrev Count := BitVec 4

/-- The width of OFF (R31). -/
abbrev Offset := BitVec 6

end Sys2Proof
end

