-- ==== Sys2Proof/Syntax.lean ====
section
/-! DEFINITION. The eight commands (R57), the fields of a raw command word (R56), the host's register
accesses (R38) and the statements of a host program (R69). -/

namespace Sys2Proof

/-- The eight commands of the opcode table (R57). A command has no operand in its word (R59). -/
inductive Instr where
  /-- LEN.64, word 0x1 (R74). -/
  | len64
  /-- LEN.N, word 0x9 (R75). -/
  | lenN
  /-- DEC.64, word 0x2 (R88). -/
  | dec64
  /-- DEC.N, word 0xA (R89). -/
  | decN
  /-- TRYDEC.64, word 0x3 (R90). -/
  | trydec64
  /-- TRYDEC.N, word 0xB (R91). -/
  | trydecN
  /-- ENC.64, word 0x4 (R98). -/
  | enc64
  /-- ENC.N, word 0xC (R99). -/
  | encN
deriving DecidableEq, Repr

/-- The fields of a command word (R56): OP in bits 2:0, N in bit 3, RSVD in bits 63:4. -/
structure CommandFields where
  op : BitVec 3
  n : Bool
  rsvd : BitVec 60
deriving DecidableEq, Repr

/-- The five host registers (R18). -/
inductive Reg where
  | cmd
  | operand
  | result
  | status
  | errinfo
deriving DecidableEq, Repr

/-- One access of the Host (R38): its width in bits, its byte offset, and the value of a write. Raw: an
access that R38 refuses is a value of this type too. -/
inductive HostAccess where
  | read (width offset : Nat)
  | write (width offset : Nat) (w : Word)
deriving DecidableEq, Repr

/-- A statement of a host program (R69). -/
inductive HostStmt where
  /-- `write <REG>, <value>`. -/
  | write (r : Reg) (w : Word)
  /-- `read <REG>`. -/
  | read (r : Reg)
  /-- The pseudo-instruction `issue <mnemonic>`. -/
  | issue (i : Instr)
  /-- The pseudo-instruction `wait`: poll STATUS until a read sees BUSY = 0. -/
  | wait
deriving DecidableEq, Repr

end Sys2Proof
end

