-- ==== Sys2Proof/WellFormed.lean ====
section
/-! DEFINITION. What a legal command word (R57, R58), a defined host access (R38) and a well-formed
command are. -/

namespace Sys2Proof

/-- A legal operation code: 001, 010, 011 or 100 (R56, R58). -/
def CommandFields.opLegal (f : CommandFields) : Bool :=
  f.op == 1 || f.op == 2 || f.op == 3 || f.op == 4

/-- RSVD must be all zero (R56). -/
def CommandFields.rsvdZero (f : CommandFields) : Bool :=
  f.rsvd == 0

/-- A command word's fields are legal (R58). -/
def CommandFields.wellFormed (f : CommandFields) : Bool :=
  f.opLegal && f.rsvdZero

/-- A command has no operand (R59), so every constructor is well formed. -/
def Instr.wellFormed : Instr → Bool
  | .len64 => true
  | .lenN => true
  | .dec64 => true
  | .decN => true
  | .trydec64 => true
  | .trydecN => true
  | .enc64 => true
  | .encN => true

/-- An access moves one whole 64-bit register (R38). -/
def HostAccess.whole : HostAccess → Bool
  | .read width _ => width == 64
  | .write width _ _ => width == 64

/-- An access stands at an offset that is a multiple of 8 (R38, R49). -/
def HostAccess.aligned : HostAccess → Bool
  | .read _ offset => offset % 8 == 0
  | .write _ offset _ => offset % 8 == 0

/-- The accesses the block defines (R38). Offsets of 0x28 and above are among them. -/
def HostAccess.wellFormed (a : HostAccess) : Bool :=
  a.whole && a.aligned

end Sys2Proof
end

