-- ==== Sys2Proof/Decode.lean ====
section
/-! DEFINITION. From a 64-bit command word to a command, total and by the fields of R56 (R57, R58, R70),
and back. A command is one word (R56), with no byte order (R48). -/

namespace Sys2Proof

/-- The fields of a command word (R56). -/
def commandFields (w : Word) : CommandFields :=
  ⟨w.extractLsb' 0 3, w.getLsbD 3, w.extractLsb' 4 60⟩

/-- The command of legal fields (R57): OP selects the operation, N the variant (R70). -/
def commandOf (op : Nat) (n : Bool) : Option Instr :=
  match op, n with
  | 1, false => some .len64
  | 1, true => some .lenN
  | 2, false => some .dec64
  | 2, true => some .decN
  | 3, false => some .trydec64
  | 3, true => some .trydecN
  | 4, false => some .enc64
  | 4, true => some .encN
  | _, _ => none

/-- The decoder of command words: one of the eight commands, or `none` for an illegal word (R58, R70). -/
def decode (w : Word) : Option Instr :=
  if (commandFields w).rsvdZero then
    commandOf (commandFields w).op.toNat (commandFields w).n
  else
    none

/-- The OP and N of a command (R57). -/
def opcodeOf : Instr → BitVec 3 × Bool
  | .len64 => (1, false)
  | .lenN => (1, true)
  | .dec64 => (2, false)
  | .decN => (2, true)
  | .trydec64 => (3, false)
  | .trydecN => (3, true)
  | .enc64 => (4, false)
  | .encN => (4, true)

/-- The word of fields (R56): RSVD, N, OP from the top bit down. -/
def wordOfFields (f : CommandFields) : Word :=
  (f.rsvd ++ BitVec.ofBool f.n ++ f.op : BitVec (60 + 1 + 3))

/-- The command word of a command (R57): RSVD is zero. -/
def encode (i : Instr) : Word :=
  wordOfFields ⟨(opcodeOf i).1, (opcodeOf i).2, 0⟩

/-- The 64-bit command word of an opcode-table row's low `nbits` bits, every higher bit 0; `none` where
the row's bits do not fit one command word (R56, log 17). -/
def tableWord (nbits w : Nat) : Option Word :=
  if w % 2 ^ nbits < 2 ^ 64 then some (BitVec.ofNat 64 (w % 2 ^ nbits)) else none

/-- The command the decoder reads from an opcode-table row's bits. -/
def decodeTableWord (nbits w : Nat) : Option Instr :=
  match tableWord nbits w with
  | some word => decode word
  | none => none

end Sys2Proof
end

