-- ==== Sys2Proof/Config.lean ====
section
/-! DEFINITION. What one block fixes at build time (R6 to R8, R34, R51) and the free
values the spec leaves open (R24). -/

namespace Sys2Proof.Config

/-- The native width `W_N`, 32 or 64 bits (R6). -/
inductive NativeWidth where
  | w32
  | w64
deriving DecidableEq, Repr, Inhabited

/-- `W_N` as a number of bits (R6). -/
def NativeWidth.bits : NativeWidth → Nat
  | .w32 => 32
  | .w64 => 64

/-- The parameters of one instance that no step changes (R6, R7, R34). -/
structure Params where
  /-- `W_N` (R6). -/
  nativeWidth : NativeWidth
  /-- `NARROW_REJECT` (R7). -/
  narrowReject : Bool
deriving DecidableEq, Repr, Inhabited

/-- Which numbers name an error other than `unexpectedEnd`. `IoErr` is a type parameter (R8), so this is
a constant with no body: there may be no other error, finitely many, or one for every number (log 5). -/
opaque namesError : Nat → Bool

/-- The errors other than `unexpectedEnd`: a type that nothing fixes (R8, log 5). -/
abbrev OtherErr := { n : Nat // namesError n = true }

/-- `IoErr` (R8): the errors a byte source or sink can report. Of this parameter the spec fixes the one
element `unexpectedEnd`, and so does the model: the rest is `OtherErr`. The block stores an error unchanged
and never tests which one it holds. -/
inductive IoErr where
  /-- The error of a read of exactly one byte that finds none (R8, R43). A source or sink may report it too. -/
  | unexpectedEnd
  /-- Any other error that a source or sink reports. -/
  | other (e : OtherErr)
deriving DecidableEq, Repr, Inhabited

/-- `W_N` and `NARROW_REJECT` of the block that leaves reset: left open by the source (R6, R7), so a
constant with no body (log 4, safe). -/
opaque params : Params

/-- What ERRINFO reads while it holds an error (R8, R25): left open, so with no body (log 6, safe).
`Machine.errEncode` adds `errEncode(none) = 0`. -/
opaque errEncode : IoErr → Word

/-- STATUS.COUNT after SRC_ERR, OVERFLOW, SINK_ERR or NARROW_OVF, freely drawn (R24): the value of the
n-th draw, with no body (log 7, safe). -/
opaque freeCount : Nat → Count

/-- `BASE` (R51): where the register block sits in the host's address space. No rule reads it (log 15). -/
opaque base : Nat

end Sys2Proof.Config
end

