-- ==== Sys2Proof/Machine/State.lean ====
section
/-! DEFINITION. The block's registers (10_state.md), the agents' moves (R9), the machine's stops, and the
state right after reset (R36). -/

namespace Sys2Proof.Machine

/-- STATUS.CODE (R23). Values 8 to 15 are never produced (U15), so they have no constructor. -/
inductive Code where
  | none
  | ok
  | absent
  | srcErr
  | overflow
  | sinkErr
  | illegalCmd
  | narrowOvf
deriving DecidableEq, Repr

/-- PHASE, the sequencer state (R28). -/
inductive Phase where
  | idle
  | lenExec
  | decFirst
  | decMid
  | decLast
  | encEmit
deriving DecidableEq, Repr

/-- OPK, the kind of the command in progress (R33). -/
inductive Op where
  | len
  | dec
  | trydec
  | enc
deriving DecidableEq, Repr

/-- The Source's answer to a byte request (R42); also what the block sees after R43. -/
inductive SrcAnswer where
  | byte (b : Byte)
  | empty
  | err (e : Config.IoErr)
deriving DecidableEq, Repr

/-- The Sink's answer to an offered byte (R45). -/
inductive SinkAnswer where
  | ok
  | err (e : Config.IoErr)
deriving DecidableEq, Repr

/-- The agents of R9, and the reset input (R114). -/
inductive Agent where
  | host
  | datapath
  | source
  | sink
  | reset
deriving DecidableEq, Repr

/-- One atomic step of one agent (R9), with what the agent freely chooses in it. -/
inductive Move where
  /-- The Host makes a register access (R38). -/
  | host (a : HostAccess)
  /-- The Datapath makes its own step (R73). -/
  | datapath
  /-- The Source answers the current byte request (R41, R42). -/
  | source (a : SrcAnswer)
  /-- The Sink answers the current byte offer (R45). -/
  | sink (a : SinkAnswer)
  /-- The reset input is asserted (R114). -/
  | reset
deriving DecidableEq, Repr

/-- Why a step is impossible. The block itself has no such stop: its errors are completion codes (R100). -/
inductive Fault where
  /-- The next scheduled move is one its agent may not make in this phase: a Datapath step outside
  LEN_EXEC (R73), a Source answer outside the decode phases (R41), a Sink answer outside ENC_EMIT (R45).
  Raised by `lenMove`, `sourceMove` and `sinkMove`. Safe: the spec has no such step (log 3). -/
  | notEnabled (agent : Agent)
deriving DecidableEq, Repr

/-- Why the model has no meaning for a step. -/
inductive Refusal where
  /-- A command whose meaning is not written yet; `exec` alone raises it. Safe. -/
  | notModelled (mnemonic : String)
  /-- A host access that is not 64 bits wide at a multiple of 8, which a model refuses (R38). Raised by
  `hostMove`. Safe (log 10). -/
  | hostAccess
  /-- Two instances share a Source or a Sink, which a model refuses (R111). Raised by `Platform.step`.
  Safe (log 14). -/
  | sharedStream
  /-- A step of an instance that the platform does not hold. Raised by `Platform.step`. Safe (log 14). -/
  | noSuchBlock
deriving DecidableEq, Repr

/-- Everything the spec gives one block, the agents' side of the shared state, and the model's own
bookkeeping (INVENTORY.md, '## State'). -/
structure State where
  /-- W_N and NARROW_REJECT of this instance: configuration that no step changes (R34, log 4). -/
  params : Config.Params
  /-- OPERAND (R20). -/
  operand : Word
  /-- RESULT (R21). -/
  result : Word
  /-- STATUS.BUSY (R22). -/
  busy : Bool
  /-- STATUS.CMD_LOST (R22). -/
  cmdLost : Bool
  /-- STATUS.CODE (R22, R23). -/
  code : Code
  /-- STATUS.COUNT (R22, R24). -/
  count : Count
  /-- ERR, the content of ERRINFO (R25). -/
  err : Option Config.IoErr
  /-- PHASE (R28). -/
  phase : Phase
  /-- OPK (R33). -/
  opk : Op
  /-- NW (R33). -/
  nw : Bool
  /-- REM (R29). -/
  rem : Word
  /-- ACC (R30). -/
  acc : Word
  /-- OFF (R31). -/
  off : Offset
  /-- CNT (R32). -/
  cnt : Count
  /-- The bytes consumed from the source, oldest first (R44, log 9). -/
  srcTaken : List Byte
  /-- The bytes the sink has accepted, oldest first (R46, log 9). -/
  sinkStream : List Byte
  /-- What the Host's reads returned, oldest first, each with its offset (R39, log 9). -/
  hostReads : List (Nat × Word)
  /-- The model's own: how many free values have been drawn (R24, log 7). -/
  draws : Nat
  /-- The model's own: the moves the agents make next, oldest first (log 1). -/
  schedule : List Move
deriving DecidableEq, Repr

/-- The state after reset (R36). OPK, NW, REM, ACC, OFF and CNT hold the values log 8 names: DESIGN
CHOICE, since the spec gives none. Nothing is scheduled, and no agent has acted yet. -/
def State.reset : State where
  params := Config.params
  operand := 0
  result := 0
  busy := false
  cmdLost := false
  code := .none
  count := 0
  err := none
  phase := .idle
  opk := .len
  nw := false
  rem := 0
  acc := 0
  off := 0
  cnt := 0
  srcTaken := []
  sinkStream := []
  hostReads := []
  draws := 0
  schedule := []

end Sys2Proof.Machine
end

