-- ==== Sys2Proof/Machine/Flags.lean ====
section
/-! DEFINITION. The host-visible status: the numbers of the completion codes (R23), the STATUS word (R22,
R39) and ERRINFO (R25). -/

namespace Sys2Proof.Machine

/-- The value of STATUS.CODE (R23). -/
def Code.toBits : Code → BitVec 4
  | .none => 0
  | .ok => 1
  | .absent => 2
  | .srcErr => 3
  | .overflow => 4
  | .sinkErr => 5
  | .illegalCmd => 6
  | .narrowOvf => 7

/-- A one-bit field as a word. -/
def flagWord (b : Bool) : Word :=
  (BitVec.ofBool b).setWidth 64

/-- The STATUS word, `zext_64(COUNT << 8 | CODE << 4 | CMD_LOST << 1 | BUSY)` (R39). -/
def statusWord (s : State) : Word :=
  (s.count.setWidth 64 <<< 8) ||| (s.code.toBits.setWidth 64 <<< 4) |||
    (flagWord s.cmdLost <<< 1) ||| flagWord s.busy

/-- `errEncode` (R8, R25): 0 for no error, the instance's own value for an error (log 6). -/
def errEncode : Option Config.IoErr → Word
  | none => 0
  | some e => Config.errEncode e

end Sys2Proof.Machine
end

