-- ==== Sys2Proof/Machine/Operands.lean ====
section
/-! DEFINITION. Where a command's values come from: the operand of LEN and ENC (R59), narrowing to the
native width (R7, R83), and the kinds of byte request (R14, R41, R43). -/

namespace Sys2Proof.Machine

/-- `zext_64(v[W_N-1:0])` (R11, R59, R83). -/
def nativeTrunc (w : Config.NativeWidth) (v : Word) : Word :=
  (v.setWidth w.bits).setWidth 64

/-- `opval` (R59): OPERAND, or its low W_N bits for a native-width command. -/
def opval (w : Config.NativeWidth) (nw : Bool) (operand : Word) : Word :=
  if nw then nativeTrunc w operand else operand

/-- The condition of `deliver`'s first branch (R83): the value is delivered whole. -/
def fitsNative (w : Config.NativeWidth) (nw : Bool) (v : Word) : Bool :=
  !nw || w.bits == 64 || v.toNat < 2 ^ w.bits

/-- The two kinds of byte request (R14). -/
inductive RequestKind where
  | exact
  | upTo
deriving DecidableEq, Repr

/-- The kind of the current request (R41): UpTo for the first byte of a TRYDEC, Exact otherwise. -/
def requestKind (s : State) : RequestKind :=
  if s.phase = .decFirst ∧ s.opk = .trydec then .upTo else .exact

/-- The answer to an Exact request: a byte, or an error; a missing byte is `unexpectedEnd` (R43). -/
def exactRead : SrcAnswer → Except Config.IoErr Byte
  | .byte b => .ok b
  | .empty => .error .unexpectedEnd
  | .err e => .error e

/-- `SrcRead(kind)` (R43): what the block sees of the Source's answer. -/
def srcRead (kind : RequestKind) (a : SrcAnswer) : SrcAnswer :=
  match kind with
  | .upTo => a
  | .exact =>
    match exactRead a with
    | .ok b => .byte b
    | .error e => .err e

end Sys2Proof.Machine
end

