-- ==== Sys2Proof/Machine/Varint.lean ====
section
/-! DEFINITION. The varint byte format (R63 to R68), the length function (R71), the encoder's bytes
(R92, R95) and the functional view of the decoder (R86). -/

namespace Sys2Proof.Machine

/-- `b & 0x80 == 0`: the byte's continuation bit C is clear, so it is a terminal byte (R63). -/
def terminal (b : Byte) : Bool :=
  b &&& 0x80 == 0

/-- `b & 0x7F`: the 7 payload bits P (R63). -/
def payload (b : Byte) : Byte :=
  b &&& 0x7F

/-- The value of a byte sequence, first byte least significant (R64). -/
def varintValue : List Byte → Nat
  | [] => 0
  | b :: bs => (payload b).toNat + 2 ^ 7 * varintValue bs

/-- Every byte but the last has C = 1, and the last has C = 0 (R64). -/
abbrev VarintShape (bs : List Byte) : Prop :=
  (∀ b ∈ bs.dropLast, terminal b = false) ∧ (∀ b ∈ bs.getLast?, terminal b = true)

/-- The set `Accepted` (R67). -/
abbrev Accepted (bs : List Byte) : Prop :=
  (1 ≤ bs.length ∧ bs.length ≤ 9 ∧ VarintShape bs) ∨
    (bs.length = 10 ∧ (∀ b ∈ bs.dropLast, terminal b = false) ∧ bs.getLast? = some 0x01)

/-- The zero bits of `v` above its highest set bit, among its low `n` bits. -/
def leadingZeros : Nat → Word → Nat
  | 0, _ => 0
  | n + 1, v => if v.getLsbD n then 0 else leadingZeros n v + 1

/-- `clz64` (R12). -/
def clz64 (v : Word) : Nat :=
  leadingZeros 64 v

/-- `len7` (R71), with `ceil(b / 7)` as `(b + 6) / 7`. -/
def len7 (v : Word) : Nat :=
  max ((64 - clz64 v + 6) / 7) 1

/-- `cur` of R92: the low 7 bits of the remaining value. -/
def lowGroup (v : Word) : Byte :=
  (v &&& 0x7F).setWidth 8

/-- `nxt` of R92: what remains after the low group. -/
def afterGroup (v : Word) : Word :=
  v >>> 7

/-- `byte` of R92: what the encoder offers while `v` remains. -/
def offeredByte (v : Word) : Byte :=
  if afterGroup v = 0 then lowGroup v else lowGroup v ||| 0x80

/-- `enc` (R95) with the recursion cut after `n` bytes. -/
def encUpTo : Nat → Word → List Byte
  | 0, _ => []
  | n + 1, v =>
    if afterGroup v = 0 then [offeredByte v] else offeredByte v :: encUpTo n (afterGroup v)

/-- `enc` (R95): the recursion ends after at most 10 bytes. -/
def enc (v : Word) : List Byte :=
  encUpTo 10 v

/-- What a decode comes to, before narrowing (R86). -/
inductive DecOutcome where
  | ok (v64 : Nat) (k : Nat)
  | absent
  | srcErr (e : Config.IoErr)
  | overflow
deriving DecidableEq, Repr

/-- `loop` of R86, with the answers it did not use; `none` where the answers run out. -/
def outcomeLoop (acc off i : Nat) : List SrcAnswer → Option (DecOutcome × List SrcAnswer)
  | [] => none
  | a :: more =>
    match exactRead a with
    | .error e => some (.srcErr e, more)
    | .ok c =>
      if off = 63 then
        if c = 0x01 then some (.ok (acc + 2 ^ 63) 10, more) else some (.overflow, more)
      else if c.toNat < 0x80 then
        some (.ok (acc + (payload c).toNat * 2 ^ off) i, more)
      else
        outcomeLoop (acc + (payload c).toNat * 2 ^ off) (off + 7) (i + 1) more

/-- `outcome` of R86, with the answers it did not use; `none` where the answers run out. -/
def outcome (kind0 : RequestKind) : List SrcAnswer → Option (DecOutcome × List SrcAnswer)
  | [] => none
  | a :: more =>
    match srcRead kind0 a with
    | .empty => some (.absent, more)
    | .err e => some (.srcErr e, more)
    | .byte b =>
      if b.toNat < 0x80 then some (.ok b.toNat 1, more)
      else outcomeLoop (payload b).toNat 7 2 more

end Sys2Proof.Machine
end

