-- ==== Sys2Proof/Machine/Ops.lean ====
section
/-! DEFINITION. The named operations over the block's registers and the agents' streams: single updates,
`finish` (R15), taking an exception (R101, R105), accepting a command (R60), discarding one (R61), the
illegal command (R62) and the reset input (R114). -/

namespace Sys2Proof.Machine

/-- The moves still to come (log 1). -/
def setSchedule (ms : List Move) (s : State) : State :=
  { s with schedule := ms }

/-- `OPERAND <- w` (R40). -/
def setOperand (w : Word) (s : State) : State :=
  { s with operand := w }

/-- `RESULT <- v` (R21). -/
def setResult (v : Word) (s : State) : State :=
  { s with result := v }

/-- `STATUS.COUNT <- n` (R24). -/
def setCount (n : Count) (s : State) : State :=
  { s with count := n }

/-- `ERR <- e` (R25). -/
def setErr (e : Option Config.IoErr) (s : State) : State :=
  { s with err := e }

/-- `REM <- v` (R29). -/
def setRem (v : Word) (s : State) : State :=
  { s with rem := v }

/-- `ACC <- v` (R30). -/
def setAcc (v : Word) (s : State) : State :=
  { s with acc := v }

/-- `OFF <- v` (R31). -/
def setOff (v : Offset) (s : State) : State :=
  { s with off := v }

/-- `PHASE <- p` (R13). -/
def setPhase (p : Phase) (s : State) : State :=
  { s with phase := p }

/-- `STATUS.COUNT` takes a freely drawn value, `anyCount` of 41_decoder.md (R24, log 7). -/
def anyCount (s : State) : State :=
  { s with count := Config.freeCount s.draws, draws := s.draws + 1 }

/-- A byte of the source is consumed (R44) and counted (R32). -/
def takeByte (b : Byte) (s : State) : State :=
  { s with srcTaken := s.srcTaken ++ [b], cnt := s.cnt + 1 }

/-- A byte is appended to the sink's stream (R45) and counted (R32). -/
def putByte (b : Byte) (s : State) : State :=
  { s with sinkStream := s.sinkStream ++ [b], cnt := s.cnt + 1 }

/-- The Host's record of a read (R39, log 9). -/
def logRead (offset : Nat) (v : Word) (s : State) : State :=
  { s with hostReads := s.hostReads ++ [(offset, v)] }

/-- `finish(code)`, the only way a command ends (R15). -/
def finish (c : Code) (s : State) : State :=
  { s with code := c, busy := false, phase := .idle }

/-- A decode or encode ends with OK and reports its bytes (R24). -/
def finishCounted (s : State) : State :=
  finish .ok (setCount s.cnt s)

/-- The exceptions, each with what it records (R101). -/
inductive Exception where
  | srcErr (e : Config.IoErr)
  | overflow
  | sinkErr (e : Config.IoErr)
  | illegalCmd
  | narrowOvf
deriving DecidableEq, Repr

/-- The completion code of an exception (R101). -/
def Exception.code : Exception → Code
  | .srcErr _ => .srcErr
  | .overflow => .overflow
  | .sinkErr _ => .sinkErr
  | .illegalCmd => .illegalCmd
  | .narrowOvf => .narrowOvf

/-- What an exception does to ERR: written for SRC_ERR and SINK_ERR, otherwise left alone (R105). ERR is
then already none: R60 or R62 cleared it. -/
def recordErr (x : Exception) (s : State) : State :=
  match x with
  | .srcErr e => setErr (some e) s
  | .sinkErr e => setErr (some e) s
  | .overflow => s
  | .illegalCmd => s
  | .narrowOvf => s

/-- What an exception does to COUNT: 0 for ILLEGAL_CMD, any value for the others (R24). -/
def recordCount (x : Exception) (s : State) : State :=
  match x with
  | .illegalCmd => setCount 0 s
  | .srcErr _ => anyCount s
  | .overflow => anyCount s
  | .sinkErr _ => anyCount s
  | .narrowOvf => anyCount s

/-- Entry to an exception (R105): ERR and COUNT are recorded and the command ends. Nothing else changes:
no mode, no mask, no saved context. -/
def takeException (x : Exception) (s : State) : State :=
  finish x.code (recordCount x (recordErr x s))

/-- There is no return from an exception (R106): its report stays until a CMD write while BUSY = 0, legal
or illegal, clears it here, together with CMD_LOST (R60, R62). -/
def clearReport (s : State) : State :=
  { s with cmdLost := false, err := none, code := .none, count := 0 }

/-- What R60 latches from the command word, whatever the operation. -/
def latchCommand (k : Op) (n : Bool) (s : State) : State :=
  { s with opk := k, nw := n, cnt := 0, busy := true }

/-- The last line of R60: where the accepted command goes, with its operand (R59). -/
def enterCommand (k : Op) (n : Bool) (s : State) : State :=
  match k with
  | .len => setPhase .lenExec (setRem (opval s.params.nativeWidth n s.operand) s)
  | .enc => setPhase .encEmit (setRem (opval s.params.nativeWidth n s.operand) s)
  | .dec => setPhase .decFirst s
  | .trydec => setPhase .decFirst s

/-- A legal command word is accepted in IDLE (R60). -/
def accept (k : Op) (n : Bool) (s : State) : State :=
  enterCommand k n (latchCommand k n (clearReport s))

/-- Any word written to CMD while a command is in progress is discarded (R61). -/
def loseCommand (s : State) : State :=
  { s with cmdLost := true }

/-- A legal command word is written to CMD (R60, R61): the meaning of every command. The rest of an
accepted command is the Datapath's, the Source's or the Sink's steps (log 12). -/
def issue (k : Op) (n : Bool) (s : State) : State :=
  if s.phase = .idle then accept k n s else loseCommand s

/-- An illegal word is written to CMD (R61, R62). -/
def issueIllegal (s : State) : State :=
  if s.phase = .idle then takeException .illegalCmd (clearReport s) else loseCommand s

/-- The reset input (R114): every register of the block to its value of R36. The Source, the Sink, the
Host's record, the moves to come and the parameters are not the block's and stay (log 9). -/
def resetBlock (s : State) : State :=
  { State.reset with
    params := s.params
    srcTaken := s.srcTaken
    sinkStream := s.sinkStream
    hostReads := s.hostReads
    draws := s.draws
    schedule := s.schedule }

end Sys2Proof.Machine
end

