-- ==== Sys2Proof/Machine/Decoder.lean ====
section
/-! DEFINITION. The Decoder (41_decoder.md): DEC.64, DEC.N, TRYDEC.64, TRYDEC.N, the three decode phases
and the delivery of a value. -/

namespace Sys2Proof.Machine

/-- DEC.64 (R88): the CMD write that issues it (R60, R61). -/
def execDec64 (s : State) : Host.Outcome State Fault Refusal :=
  .next (issue .dec false s)

/-- DEC.N (R89): the CMD write that issues it (R60, R61). -/
def execDecN (s : State) : Host.Outcome State Fault Refusal :=
  .next (issue .dec true s)

/-- TRYDEC.64 (R90): the CMD write that issues it (R60, R61). -/
def execTrydec64 (s : State) : Host.Outcome State Fault Refusal :=
  .next (issue .trydec false s)

/-- TRYDEC.N (R91): the CMD write that issues it (R60, R61). -/
def execTrydecN (s : State) : Host.Outcome State Fault Refusal :=
  .next (issue .trydec true s)

/-- `deliver(v)` (R83): the value whole, or NARROW_OVF, or its low W_N bits. -/
def deliver (v : Word) (s : State) : State :=
  if fitsNative s.params.nativeWidth s.nw v then
    finishCounted (setResult v s)
  else if s.params.narrowReject then
    takeException .narrowOvf s
  else
    finishCounted (setResult (nativeTrunc s.params.nativeWidth v) s)

/-- The first byte has arrived (R76). -/
def decFirstByte (b : Byte) (s : State) : State :=
  if terminal b then
    deliver (b.setWidth 64) (takeByte b s)
  else
    setPhase .decMid (setOff 7 (setAcc ((payload b).setWidth 64) (takeByte b s)))

/-- The first request is answered (R76, R77, R78). -/
def decFirst (a : SrcAnswer) (s : State) : State :=
  match srcRead (requestKind s) a with
  | .byte b => decFirstByte b s
  | .empty => finish .absent (setCount 0 s)
  | .err e => takeException (.srcErr e) s

/-- ACC with an interior byte's group added (R79). -/
def addGroup (c : Byte) (s : State) : Word :=
  s.acc + ((payload c).setWidth 64 <<< s.off.toNat)

/-- After an interior continuation byte (R79): the next offset, and the last phase once it is 63. -/
def advanceOffset (s : State) : State :=
  if s.off + 7 = 63 then setPhase .decLast (setOff (s.off + 7) s) else setOff (s.off + 7) s

/-- An interior byte has arrived (R79). -/
def decMidByte (c : Byte) (s : State) : State :=
  if terminal c then
    deliver (addGroup c s) (setAcc (addGroup c s) (takeByte c s))
  else
    advanceOffset (setAcc (addGroup c s) (takeByte c s))

/-- An interior request is answered (R79, R80). -/
def decMid (a : SrcAnswer) (s : State) : State :=
  match exactRead a with
  | .ok c => decMidByte c s
  | .error e => takeException (.srcErr e) s

/-- ACC with bit 63 added (R81). The known summand stands first, so that a symbolic ACC stops its
evaluation. -/
def addTopBit (s : State) : Word :=
  ((1 : Word) <<< 63) + s.acc

/-- The tenth byte has arrived: the 64-bit overflow check (R81). -/
def decLastByte (d : Byte) (s : State) : State :=
  if d = 0x01 then
    deliver (addTopBit s) (setAcc (addTopBit s) (takeByte d s))
  else
    takeException .overflow (takeByte d s)

/-- The tenth request is answered (R81, R82). -/
def decLast (a : SrcAnswer) (s : State) : State :=
  match exactRead a with
  | .ok d => decLastByte d s
  | .error e => takeException (.srcErr e) s

/-- The Source's move, enabled exactly in the decode phases (R41). -/
def sourceMove (a : SrcAnswer) (s : State) : Host.Outcome State Fault Refusal :=
  match s.phase with
  | .decFirst => .next (decFirst a s)
  | .decMid => .next (decMid a s)
  | .decLast => .next (decLast a s)
  | .idle => .fault (.notEnabled .source)
  | .lenExec => .fault (.notEnabled .source)
  | .encEmit => .fault (.notEnabled .source)

end Sys2Proof.Machine
end

