-- ==== Sys2Proof/Machine/Encoder.lean ====
section
/-! DEFINITION. The Encoder (42_encoder.md): ENC.64, ENC.N and the emit phase. -/

namespace Sys2Proof.Machine

/-- ENC.64 (R98): the CMD write that issues it (R60, R61). -/
def execEnc64 (s : State) : Host.Outcome State Fault Refusal :=
  .next (issue .enc false s)

/-- ENC.N (R99): the CMD write that issues it (R60, R61). -/
def execEncN (s : State) : Host.Outcome State Fault Refusal :=
  .next (issue .enc true s)

/-- The sink has the offered byte, and the low group is gone from REM (R93). -/
def emitByte (s : State) : State :=
  setRem (afterGroup s.rem) (putByte (offeredByte s.rem) s)

/-- The offer is answered (R93, R94). A byte the Sink refuses is not written (R45). -/
def encEmit (a : SinkAnswer) (s : State) : State :=
  match a with
  | .ok => if afterGroup s.rem = 0 then finishCounted (emitByte s) else emitByte s
  | .err e => takeException (.sinkErr e) s

/-- The Sink's move, enabled exactly in ENC_EMIT (R45). -/
def sinkMove (a : SinkAnswer) (s : State) : Host.Outcome State Fault Refusal :=
  if s.phase = .encEmit then .next (encEmit a s) else .fault (.notEnabled .sink)

end Sys2Proof.Machine
end

