-- ==== Sys2Proof/Machine/LengthCalculator.lean ====
section
/-! DEFINITION. The Length Calculator (40_length.md): LEN.64, LEN.N and the Datapath's step. -/

namespace Sys2Proof.Machine

/-- LEN.64 (R74): the CMD write that issues it (R60, R61). -/
def execLen64 (s : State) : Host.Outcome State Fault Refusal :=
  .next (issue .len false s)

/-- LEN.N (R75): the CMD write that issues it (R60, R61). -/
def execLenN (s : State) : Host.Outcome State Fault Refusal :=
  .next (issue .len true s)

/-- The LEN evaluation (R73). -/
def lenStep (s : State) : State :=
  finish .ok (setCount 0 (setResult (BitVec.ofNat 64 (len7 s.rem)) s))

/-- The Datapath's move, enabled exactly in LEN_EXEC (R73). -/
def lenMove (s : State) : Host.Outcome State Fault Refusal :=
  if s.phase = .lenExec then .next (lenStep s) else .fault (.notEnabled .datapath)

end Sys2Proof.Machine
end

