-- ==== Sys2Proof/Machine/Dispatch.lean ====
section
/-! DEFINITION. One arm for each command of the opcode table: what the step of its CMD write does. -/

namespace Sys2Proof.Machine

def exec (i : Instr) (s : State) : Host.Outcome State Fault Refusal :=
  match i with
  | .len64 => Sys2Proof.Machine.execLen64 s
  | .lenN => Sys2Proof.Machine.execLenN s
  | .dec64 => Sys2Proof.Machine.execDec64 s
  | .decN => Sys2Proof.Machine.execDecN s
  | .trydec64 => Sys2Proof.Machine.execTrydec64 s
  | .trydecN => Sys2Proof.Machine.execTrydecN s
  | .enc64 => Sys2Proof.Machine.execEnc64 s
  | .encN => Sys2Proof.Machine.execEncN s

end Sys2Proof.Machine
end

