-- ==== Sys2Proof/Machine/HostPort.lean ====
section
/-! DEFINITION. The host register space (20_memory.md section 2): what a read returns, what a write does,
and which accesses are refused. -/

namespace Sys2Proof.Machine

/-- What a Host read at a byte offset returns (R39). Any other multiple of 8 returns 0. -/
def readValue (offset : Nat) (s : State) : Word :=
  if offset = 0x00 then 0
  else if offset = 0x08 then s.operand
  else if offset = 0x10 then s.result
  else if offset = 0x18 then statusWord s
  else if offset = 0x20 then errEncode s.err
  else 0

/-- A Host read (R39): the value goes to the Host's record, and no register changes. -/
def hostRead (offset : Nat) (s : State) : State :=
  logRead offset (readValue offset s) s

/-- A CMD write (R40): a legal word runs its command (R60, R61), any other is illegal (R58, R62). -/
def writeCmd (w : Word) (s : State) : Host.Outcome State Fault Refusal :=
  match decode w with
  | some i => exec i s
  | none => .next (issueIllegal s)

/-- A Host write at a byte offset (R40). RESULT, STATUS, ERRINFO and every other multiple of 8 ignore it. -/
def hostWrite (offset : Nat) (w : Word) (s : State) : Host.Outcome State Fault Refusal :=
  if offset = 0x00 then writeCmd w s
  else if offset = 0x08 then .next (setOperand w s)
  else .next s

/-- The Host's move (R38): any access but a whole 64-bit one at a multiple of 8 is refused. -/
def hostMove (a : HostAccess) (s : State) : Host.Outcome State Fault Refusal :=
  if a.wellFormed then
    match a with
    | .read _ offset => .next (hostRead offset s)
    | .write _ offset w => hostWrite offset w s
  else
    .refused .hostAccess

end Sys2Proof.Machine
end

