-- ==== Sys2Proof/Machine/Moves.lean ====
section
/-! DEFINITION. One atomic step of one agent (R9), and what the block does while nothing is scheduled. -/

namespace Sys2Proof.Machine

/-- One move of one agent on the shared state (R9). -/
def move (m : Move) (s : State) : Host.Outcome State Fault Refusal :=
  match m with
  | .host a => hostMove a s
  | .datapath => lenMove s
  | .source a => sourceMove a s
  | .sink a => sinkMove a s
  | .reset => .next (resetBlock s)

/-- No agent is scheduled (log 2): in LEN_EXEC the Datapath makes the step it is enabled for (R73);
otherwise the block waits and all state survives (R113). -/
def unscheduled (s : State) : State :=
  if s.phase = .lenExec then lenStep s else s

/-- The move that issues an opcode-table row's word: a whole 64-bit write to CMD (R40, R57). Bits above
the row's are 0 (log 17). -/
def issueMove (nbits w : Nat) : Move :=
  .host (.write 64 0x00 (BitVec.ofNat 64 (w % 2 ^ nbits)))

end Sys2Proof.Machine
end

