-- ==== Sys2Proof/Machine/Step.lean ====
section
/-! DEFINITION. One step of the machine: the next scheduled move (R9, R53, log 1). -/

namespace Sys2Proof.Machine

/-- One step: the next scheduled move is made, or, where none is scheduled, the block goes on by itself. -/
def step (s : State) : Host.Outcome State Fault Refusal :=
  match s.schedule with
  | [] => .next (unscheduled s)
  | m :: ms => move m (setSchedule ms s)

/-- `s` with a CMD write of the given word as its very next move (log 11). -/
def State.withFetchWord (s : State) (nbits w : Nat) : State :=
  setSchedule (issueMove nbits w :: s.schedule) s

end Sys2Proof.Machine
end

