-- ==== Sys2Proof/Machine/Environment.lean ====
section
/-! DEFINITION. A block with its agents: the reference Source and Sink of the test vectors (R47), a host
program (R69), and one turn of one of them (R9). None of it is part of the block, and no claim about the
block assumes it (R47, log 16). -/

namespace Sys2Proof.Machine

/-- Carries the next state of an outcome on; a fault or a refusal stays as it is. -/
def onNext {α β φ ρ : Type} (f : α → β) : Host.Outcome α φ ρ → Host.Outcome β φ ρ
  | .next s => .next (f s)
  | .fault r => .fault r
  | .refused r => .refused r

/-- `ListSource(s, f)` (R47), with how many bytes have been consumed so far. -/
structure ListSource where
  bytes : List Byte
  failure : Option (Nat × Config.IoErr)
  consumed : Nat
deriving DecidableEq, Repr

/-- The failure is due: exactly `k` bytes have been consumed (R47). -/
def ListSource.due (src : ListSource) : Option Config.IoErr :=
  match src.failure with
  | some (k, e) => if src.consumed = k then some e else none
  | none => none

/-- What a ListSource answers to a request (R47). -/
def ListSource.answer (src : ListSource) : SrcAnswer :=
  match src.due, src.bytes with
  | some e, _ => .err e
  | none, b :: _ => .byte b
  | none, [] => .empty

/-- A ListSource after its answer (R47): only a `Byte` answer consumes. -/
def ListSource.afterAnswer (src : ListSource) : ListSource :=
  match src.due, src.bytes with
  | some _, _ => src
  | none, _ :: rest => { src with bytes := rest, consumed := src.consumed + 1 }
  | none, [] => src

/-- `ListSink(o, f)` (R47). -/
structure ListSink where
  out : List Byte
  failure : Option (Nat × Config.IoErr)
deriving DecidableEq, Repr

/-- What a ListSink answers to an offer (R47). -/
def ListSink.answer (snk : ListSink) : SinkAnswer :=
  match snk.failure with
  | some (k, e) => if snk.out.length = k then .err e else .ok
  | none => .ok

/-- A ListSink after its answer to the offer of `b` (R47): a failed byte is not written. -/
def ListSink.afterOffer (snk : ListSink) (b : Byte) : ListSink :=
  match snk.answer with
  | .ok => { snk with out := snk.out ++ [b] }
  | .err _ => snk

/-- The byte offset of a host register (R18). -/
def regOffset : Reg → Nat
  | .cmd => 0x00
  | .operand => 0x08
  | .result => 0x10
  | .status => 0x18
  | .errinfo => 0x20

/-- The Host step of a program's statement (R69): `issue` writes the command's word to CMD, and one turn
of `wait` reads STATUS. -/
def stmtAccess : HostStmt → HostAccess
  | .write r w => .write 64 (regOffset r) w
  | .read r => .read 64 (regOffset r)
  | .issue i => .write 64 (regOffset .cmd) (encode i)
  | .wait => .read 64 (regOffset .status)

/-- The value of the Host's last read; 0 before any. -/
def lastRead (s : State) : Word :=
  match s.hostReads.getLast? with
  | some (_, v) => v
  | none => 0

/-- What is left of a program once its first statement's step has led to `s` (R69): `wait` starts over
while bit 0 of the value read is 1. -/
def afterStmt (st : HostStmt) (rest : List HostStmt) (s : State) : List HostStmt :=
  match st with
  | .wait => if (lastRead s).getLsbD 0 then .wait :: rest else rest
  | .write _ _ => rest
  | .read _ => rest
  | .issue _ => rest

/-- One block with its Host's program, its Source and its Sink. -/
structure System where
  block : State
  program : List HostStmt
  source : ListSource
  sink : ListSink
deriving DecidableEq, Repr

/-- The block's step when an agent makes the given move next. -/
def stepWith (m : Move) (s : State) : Host.Outcome State Fault Refusal :=
  Sys2Proof.Machine.step (setSchedule (m :: s.schedule) s)

/-- The Host's turn: the step of its program's next statement; a Host whose program is over does nothing. -/
def System.hostTurn (y : System) : Host.Outcome System Fault Refusal :=
  match y.program with
  | [] => .next y
  | st :: rest =>
    onNext (fun b => { y with block := b, program := afterStmt st rest b })
      (stepWith (.host (stmtAccess st)) y.block)

/-- One agent's turn (R9). A reset leaves the Source and the Sink as they are (R47, R114). -/
def System.turn (g : Agent) (y : System) : Host.Outcome System Fault Refusal :=
  match g with
  | .host => y.hostTurn
  | .datapath => onNext (fun b => { y with block := b }) (stepWith .datapath y.block)
  | .source =>
    onNext (fun b => { y with block := b, source := y.source.afterAnswer })
      (stepWith (.source y.source.answer) y.block)
  | .sink =>
    onNext (fun b => { y with block := b, sink := y.sink.afterOffer (offeredByte y.block.rem) })
      (stepWith (.sink y.sink.answer) y.block)
  | .reset => onNext (fun b => { y with block := b }) (stepWith .reset y.block)

/-- Turns taken one after another (R10), up to the first fault or refusal. -/
def System.run : List Agent → System → Host.Outcome System Fault Refusal
  | [], y => .next y
  | g :: gs, y =>
    match y.turn g with
    | .next z => z.run gs
    | .fault r => .fault r
    | .refused r => .refused r

end Sys2Proof.Machine
end

