-- ==== Sys2Proof/Machine/Platform.lean ====
section
/-! DEFINITION. Several blocks side by side, each with its own Source and Sink (R111). -/

namespace Sys2Proof.Machine

/-- One block of a platform, with the platform's numbers for the Source and the Sink attached to it. The
block itself holds no such number (R111, log 14). -/
structure Attached where
  block : State
  source : Nat
  sink : Nat
deriving DecidableEq, Repr

/-- Blocks side by side (R111). -/
abbrev Platform := List Attached

/-- Two blocks share one Source or one Sink: a configuration that a model refuses (R111). -/
def Platform.sharesStream (p : Platform) : Bool :=
  !(decide (p.map Attached.source).Nodup && decide (p.map Attached.sink).Nodup)

/-- One step of the k-th block. -/
def Platform.step (k : Nat) (p : Platform) : Host.Outcome Platform Fault Refusal :=
  if p.sharesStream then
    .refused .sharedStream
  else
    match p[k]? with
    | none => .refused .noSuchBlock
    | some x => onNext (fun b => p.set k { x with block := b }) (Sys2Proof.Machine.step x.block)

end Sys2Proof.Machine
end

