-- ==== Sys2Proof/Safety.lean ====
section
/-! DEFINITION. The properties of states that claims speak of: the spec's invariant (R35), a stronger one
that every step keeps, and what of a state any rule can still observe (U18). -/

namespace Sys2Proof.Safety

open Sys2Proof.Machine

/-- The six clauses of R35, in its order. -/
structure Sequencing (s : State) : Prop where
  /-- (a) -/
  busy_iff : s.busy = true ↔ s.phase ≠ .idle
  /-- (b) -/
  len_op : s.phase = .lenExec → s.opk = .len
  /-- (b) -/
  dec_op : s.phase = .decFirst ∨ s.phase = .decMid ∨ s.phase = .decLast → s.opk = .dec ∨ s.opk = .trydec
  /-- (b) -/
  enc_op : s.phase = .encEmit → s.opk = .enc
  /-- (c) -/
  mid : s.phase = .decMid →
    s.off.toNat ∈ [7, 14, 21, 28, 35, 42, 49, 56] ∧ s.cnt.toNat = s.off.toNat / 7 ∧
      s.acc.toNat < 2 ^ s.off.toNat
  /-- (d) -/
  last : s.phase = .decLast → s.off.toNat = 63 ∧ s.cnt.toNat = 9 ∧ s.acc.toNat < 2 ^ 63
  /-- (e) -/
  emit : s.phase = .encEmit → s.rem ≠ 0 ∨ s.cnt = 0
  /-- (f) -/
  running : s.phase ≠ .idle → s.code = .none

/-- R35 with what its clauses need to be kept by a single step, and with the ranges and reports of R22,
R25, R32 and R117. -/
structure Inv (s : State) : Prop where
  /-- R35. -/
  seq : Sequencing s
  /-- R60 sets CNT to 0 when a decode is accepted. -/
  first_cnt : s.phase = .decFirst → s.cnt = 0
  /-- An encode has written 7 bits of its value for each byte it counts (R93). -/
  emit_left : s.phase = .encEmit → s.cnt.toNat ≤ 9 ∧ s.rem.toNat < 2 ^ (64 - 7 * s.cnt.toNat)
  /-- R117: while BUSY = 1 the report holds its accept-time values. -/
  running_report : s.phase ≠ .idle → s.count = 0 ∧ s.err = none
  /-- R25: ERR holds an error exactly after SRC_ERR or SINK_ERR. -/
  err_iff : s.err.isSome = true ↔ s.code = .srcErr ∨ s.code = .sinkErr
  /-- R32. -/
  cnt_le : s.cnt.toNat ≤ 10
  /-- R22, R24: COUNT is 0 to 10 unless the last completion leaves it unspecified. -/
  count_le : s.code = .none ∨ s.code = .ok ∨ s.code = .absent ∨ s.code = .illegalCmd →
    s.count.toNat ≤ 10

/-- The outcome of a step keeps a property of states: it holds of the next state, if there is one. -/
def Keeps (P : State → Prop) (o : Host.Outcome State Fault Refusal) : Prop :=
  ∀ t, o = .next t → P t

/-- A start: reset, with any parameters and anything scheduled. -/
def start (params : Config.Params) (moves : List Move) : State :=
  { State.reset with params := params, schedule := moves }

/-- A state that some run from reset reaches (R10). -/
def Reachable (s : State) : Prop :=
  ∃ params moves k, Host.Core.run Sys2Proof.core k (start params moves) = .next s

/-- A register's value where a rule can still read it, and a fixed value elsewhere. -/
def live {α : Type} (b : Bool) (v dead : α) : α :=
  if b then v else dead

/-- A decode is in progress. -/
def decoding (p : Phase) : Bool :=
  p == .decFirst || p == .decMid || p == .decLast

/-- The state with every internal register that no rule reads before writing it (R29 to R33) blanked. -/
def observable (s : State) : State :=
  { s with
    opk := live (s.phase == .decFirst) s.opk .len
    nw := live (decoding s.phase) s.nw false
    rem := live (s.phase == .lenExec || s.phase == .encEmit) s.rem 0
    acc := live (s.phase == .decMid || s.phase == .decLast) s.acc 0
    off := live (s.phase == .decMid) s.off 0
    cnt := live (decoding s.phase || s.phase == .encEmit) s.cnt 0 }

/-- The state with the native-width select blanked. -/
def withoutWidth (s : State) : State :=
  { s with nw := false }

/-- A Source answer with its error, if any, replaced. -/
def renameAnswer (f : Config.IoErr → Config.IoErr) : SrcAnswer → SrcAnswer
  | .byte b => .byte b
  | .empty => .empty
  | .err e => .err (f e)

/-- A Sink answer with its error, if any, replaced. -/
def renameSinkAnswer (f : Config.IoErr → Config.IoErr) : SinkAnswer → SinkAnswer
  | .ok => .ok
  | .err e => .err (f e)

/-- A move with the error it answers, if any, replaced. -/
def renameMove (f : Config.IoErr → Config.IoErr) : Move → Move
  | .host a => .host a
  | .datapath => .datapath
  | .source a => .source (renameAnswer f a)
  | .sink a => .sink (renameSinkAnswer f a)
  | .reset => .reset

/-- The state with the Host's record blanked: a read of ERRINFO puts an error's encoding there (R25). -/
def withoutReads (s : State) : State :=
  { s with hostReads := [] }

/-- The state with every error replaced, the one it holds and those still to be answered, and with the
Host's record blanked. -/
def renameErrors (f : Config.IoErr → Config.IoErr) (s : State) : State :=
  { s with
    err := s.err.map f
    hostReads := []
    schedule := s.schedule.map (renameMove f) }

/-- The state with everything blanked that a Host access other than an accepted CMD write may change:
OPERAND, CMD_LOST and the Host's record. -/
def withoutHost (s : State) : State :=
  { s with operand := 0, cmdLost := false, hostReads := [] }

end Sys2Proof.Safety
end

