-- ==== Sys2Proof/Certificates/Slice0/Obligations.lean ====
section
/-! DEFINITION. The statements for the provers, each a `def Obligations.<Name> : Prop`. -/

open Sys2Proof Sys2Proof.Machine Sys2Proof.Safety

namespace Sys2Proof.Statement

/-- The low W_N bits of a word, zero-extended, by arithmetic. -/
def lowBits (w : Config.NativeWidth) (v : Word) : Word :=
  BitVec.ofNat 64 (v.toNat % 2 ^ w.bits)

/-- A Bool as the number 0 or 1. -/
def bit (b : Bool) : Nat :=
  if b then 1 else 0

/-- The number of a completion code, from the table of R23. -/
def codeNumber : Code → Nat
  | .none => 0
  | .ok => 1
  | .absent => 2
  | .srcErr => 3
  | .overflow => 4
  | .sinkErr => 5
  | .illegalCmd => 6
  | .narrowOvf => 7

/-- The STATUS word by arithmetic on its fields' numbers (R39). -/
def statusNumber (s : State) : Nat :=
  s.count.toNat * 2 ^ 8 + codeNumber s.code * 2 ^ 4 + bit s.cmdLost * 2 + bit s.busy

/-- The bytes among a list of the Source's answers, in order. -/
def bytesOf (answers : List SrcAnswer) : List Byte :=
  answers.filterMap fun a => match a with
    | .byte b => some b
    | .empty => none
    | .err _ => none

/-- An outcome with its next state seen through `f`. -/
def seen (f : State → State) (o : Host.Outcome State Fault Refusal) : Host.Outcome State Fault Refusal :=
  onNext f o

/-- The number of bits a value needs: 0 for 0 (R71). -/
def bitsNeeded (n : Nat) : Nat :=
  if n = 0 then 0 else Nat.log2 n + 1

/-- The state a whole decode must end in, given its outcome (the table of R86, with R83): what the
command reports. -/
def decodeReport (o : DecOutcome) (s t : State) : Prop :=
  match o with
  | .ok v k =>
    if s.nw = false ∨ s.params.nativeWidth = .w64 ∨ v < 2 ^ s.params.nativeWidth.bits then
      t.code = .ok ∧ t.result.toNat = v ∧ t.count.toNat = k ∧ t.err = s.err
    else if s.params.narrowReject then
      t.code = .narrowOvf ∧ t.result = s.result ∧ t.count = Config.freeCount s.draws ∧ t.err = s.err
    else
      t.code = .ok ∧ t.result.toNat = v % 2 ^ s.params.nativeWidth.bits ∧ t.count.toNat = k ∧
        t.err = s.err
  | .absent => t.code = .absent ∧ t.result = s.result ∧ t.count = 0 ∧ t.err = s.err
  | .srcErr e =>
    t.code = .srcErr ∧ t.result = s.result ∧ t.count = Config.freeCount s.draws ∧ t.err = some e
  | .overflow =>
    t.code = .overflow ∧ t.result = s.result ∧ t.count = Config.freeCount s.draws ∧ t.err = s.err

end Sys2Proof.Statement

open Sys2Proof.Statement

/-! ### Encoding of command words -/

/-- The eight words of R57's table, written out, decode to their commands. -/
def Obligations.TableWordsDecode : Prop :=
  decode 0x0000000000000001 = some .len64 ∧ decode 0x0000000000000009 = some .lenN ∧
  decode 0x0000000000000002 = some .dec64 ∧ decode 0x000000000000000A = some .decN ∧
  decode 0x0000000000000003 = some .trydec64 ∧ decode 0x000000000000000B = some .trydecN ∧
  decode 0x0000000000000004 = some .enc64 ∧ decode 0x000000000000000C = some .encN

/-- R57, R70: a word decodes to a command exactly when it is, in all 64 bits, that command's word. -/
def Obligations.DecodedWordsAreExactlyTheTable : Prop :=
  ∀ (w : Word) (i : Instr), decode w = some i ↔
    (i = .len64 ∧ w = 0x1) ∨ (i = .lenN ∧ w = 0x9) ∨ (i = .dec64 ∧ w = 0x2) ∨ (i = .decN ∧ w = 0xA) ∨
    (i = .trydec64 ∧ w = 0x3) ∨ (i = .trydecN ∧ w = 0xB) ∨ (i = .enc64 ∧ w = 0x4) ∨
    (i = .encN ∧ w = 0xC)

/-- Decode and encode agree, both ways: a command's word decodes to it, and a word that decodes to a
command is that command's word, so no bit of a word is dropped. -/
def Obligations.DecodeAndEncodeAgree : Prop :=
  ∀ (w : Word) (i : Instr), i.wellFormed = true ∧ (decode w = some i ↔ encode i = w)

/-- R58: which words are illegal, and what writing one to CMD does in IDLE and while a command is in
progress. -/
def Obligations.IllegalWordsAndTheirWrites : Prop :=
  ∀ w : Word,
    (decode w = none ↔ w.toNat % 8 ∈ [0, 5, 6, 7] ∨ w.toNat / 16 ≠ 0) ∧
    ∀ (s : State) (rest : List Move), s.schedule = .host (.write 64 0x00 w) :: rest →
      (decode w = none → s.phase = .idle → ∃ t, step s = .next t ∧ t.code = .illegalCmd ∧
        t.busy = false ∧ t.phase = .idle) ∧
      (s.phase ≠ .idle → step s = .next { s with schedule := rest, cmdLost := true })

/-! ### Running a command -/

/-- A step whose next move is a CMD write of a command's word runs that command; `withFetchWord` places
exactly that move (log 11). -/
def Obligations.StepRunsTheDecodedCommand : Prop :=
  ∀ (s : State) (w : Word) (i : Instr), decode w = some i →
    (∀ rest, s.schedule = .host (.write 64 0x00 w) :: rest →
      step s = exec i { s with schedule := rest }) ∧
    step (s.withFetchWord 64 w.toNat) = exec i s ∧
    decodeTableWord 64 w.toNat = some i

/-- R113 and the model's log 2: with nothing scheduled the block waits and all state survives, but for
the Datapath's own step in LEN_EXEC. -/
def Obligations.UnscheduledBlockWaits : Prop :=
  ∀ s : State, s.schedule = [] →
    (s.phase ≠ .lenExec → step s = .next s) ∧
    (s.phase = .lenExec → step s = .next
      { s with result := BitVec.ofNat 64 (len7 s.rem), count := 0, code := .ok, busy := false,
               phase := .idle })

/-- R60: the accept step of every command, and its frame. -/
def Obligations.AcceptStepOfEveryCommand : Prop :=
  ∀ s : State, s.phase = .idle →
    exec .len64 s = .next
      { s with cmdLost := false, err := none, opk := .len, nw := false, code := .none, count := 0,
               cnt := 0, busy := true, rem := s.operand, phase := .lenExec } ∧
    exec .lenN s = .next
      { s with cmdLost := false, err := none, opk := .len, nw := true, code := .none, count := 0,
               cnt := 0, busy := true, rem := lowBits s.params.nativeWidth s.operand,
               phase := .lenExec } ∧
    exec .dec64 s = .next
      { s with cmdLost := false, err := none, opk := .dec, nw := false, code := .none, count := 0,
               cnt := 0, busy := true, phase := .decFirst } ∧
    exec .decN s = .next
      { s with cmdLost := false, err := none, opk := .dec, nw := true, code := .none, count := 0,
               cnt := 0, busy := true, phase := .decFirst } ∧
    exec .trydec64 s = .next
      { s with cmdLost := false, err := none, opk := .trydec, nw := false, code := .none, count := 0,
               cnt := 0, busy := true, phase := .decFirst } ∧
    exec .trydecN s = .next
      { s with cmdLost := false, err := none, opk := .trydec, nw := true, code := .none, count := 0,
               cnt := 0, busy := true, phase := .decFirst } ∧
    exec .enc64 s = .next
      { s with cmdLost := false, err := none, opk := .enc, nw := false, code := .none, count := 0,
               cnt := 0, busy := true, rem := s.operand, phase := .encEmit } ∧
    exec .encN s = .next
      { s with cmdLost := false, err := none, opk := .enc, nw := true, code := .none, count := 0,
               cnt := 0, busy := true, rem := lowBits s.params.nativeWidth s.operand,
               phase := .encEmit }

/-- R61: a word written to CMD while a command is in progress, legal or not, is discarded. -/
def Obligations.BusyBlockDiscardsCommandWords : Prop :=
  ∀ s : State, s.phase ≠ .idle →
    (∀ i, exec i s = .next { s with cmdLost := true }) ∧
    ∀ w rest, s.schedule = .host (.write 64 0x00 w) :: rest →
      step s = .next { s with schedule := rest, cmdLost := true }

/-- R62: an illegal word written in IDLE. -/
def Obligations.IllegalWordInIdleCompletes : Prop :=
  ∀ (s : State) (w : Word) (rest : List Move), s.phase = .idle → decode w = none →
    s.schedule = .host (.write 64 0x00 w) :: rest →
    step s = .next { s with schedule := rest, cmdLost := false, err := none, count := 0,
                            code := .illegalCmd, busy := false, phase := .idle }

/-! ### The host register space -/

/-- R39: what a read returns, and that it changes no register. -/
def Obligations.HostReadReturnsTheRegister : Prop :=
  ∀ (s : State) (a : Nat) (rest : List Move), a % 8 = 0 →
    s.schedule = .host (.read 64 a) :: rest →
    step s = .next { s with schedule := rest, hostReads := s.hostReads ++ [(a,
      if a = 0x00 then 0
      else if a = 0x08 then s.operand
      else if a = 0x10 then s.result
      else if a = 0x18 then BitVec.ofNat 64 (statusNumber s)
      else if a = 0x20 then (match s.err with | none => 0 | some e => Config.errEncode e)
      else 0)] }

/-- R40: what a write does at every offset. -/
def Obligations.HostWriteReachesOnlyCmdAndOperand : Prop :=
  ∀ (s : State) (a : Nat) (w : Word) (rest : List Move), a % 8 = 0 →
    s.schedule = .host (.write 64 a w) :: rest →
    step s =
      if a = 0x00 then
        (match decode w with
          | some i => exec i { s with schedule := rest }
          | none =>
            if s.phase = .idle then
              .next { s with schedule := rest, cmdLost := false, err := none, count := 0,
                             code := .illegalCmd, busy := false }
            else .next { s with schedule := rest, cmdLost := true })
      else if a = 0x08 then .next { s with schedule := rest, operand := w }
      else .next { s with schedule := rest }

/-- R38: an access of another width or at another offset is refused; every other access is a step. -/
def Obligations.OnlyWholeAlignedAccessesRun : Prop :=
  ∀ (s : State) (width a : Nat) (w : Word) (rest : List Move) (acc : HostAccess),
    acc = .read width a ∨ acc = .write width a w → s.schedule = .host acc :: rest →
    (width ≠ 64 ∨ a % 8 ≠ 0 → step s = .refused .hostAccess) ∧
    (width = 64 → a % 8 = 0 → ∃ t, step s = .next t) ∧
    (width = 64 → a % 8 = 0 → 0x28 ≤ a → ∃ t, step s = .next t ∧
      { t with hostReads := s.hostReads } = { s with schedule := rest })

/-- R22, R23: the fields of the STATUS word a Host reads. -/
def Obligations.StatusWordFields : Prop :=
  ∀ s : State,
    (readValue 0x18 s).toNat = statusNumber s ∧
    (readValue 0x18 s).getLsbD 0 = s.busy ∧
    (readValue 0x18 s).getLsbD 1 = s.cmdLost ∧
    (readValue 0x18 s).extractLsb' 2 2 = 0 ∧
    ((readValue 0x18 s).extractLsb' 4 4).toNat = codeNumber s.code ∧
    (readValue 0x18 s).extractLsb' 8 4 = s.count ∧
    (readValue 0x18 s).extractLsb' 12 52 = 0

/-! ### The Length Calculator -/

/-- R71: len7 by the number of bits, and by its ranges. -/
def Obligations.LengthFunctionByBitsAndRanges : Prop :=
  ∀ v : Word,
    len7 v = max ((bitsNeeded v.toNat + 6) / 7) 1 ∧
    ∀ k, len7 v = k ↔
      (k = 1 ∧ v.toNat < 2 ^ 7) ∨
      (2 ≤ k ∧ k ≤ 9 ∧ 2 ^ (7 * (k - 1)) ≤ v.toNat ∧ v.toNat < 2 ^ (7 * k)) ∨
      (k = 10 ∧ 2 ^ 63 ≤ v.toNat)

/-- R73: the Datapath's step in LEN_EXEC, and that it is enabled nowhere else. -/
def Obligations.DatapathStepEvaluatesLength : Prop :=
  ∀ (s : State) (rest : List Move), s.schedule = .datapath :: rest →
    (s.phase = .lenExec → step s = .next
      { s with schedule := rest, result := BitVec.ofNat 64 (len7 s.rem), count := 0, code := .ok,
               busy := false, phase := .idle }) ∧
    (s.phase ≠ .lenExec → step s = .fault (.notEnabled .datapath))

/-- LEN.64 and LEN.N run to their end (R74, R75), whatever Host reads and OPERAND writes come between the
accept and the Datapath's step. -/
def Obligations.LenCommandsCompleteWithTheLength : Prop :=
  ∀ (s : State) (a : Nat) (w : Word) (rest : List Move), s.phase = .idle → a % 8 = 0 →
    (∃ t u, exec .len64 s = .next t ∧
      Host.Core.run core 3
          { t with schedule := .host (.read 64 a) :: .host (.write 64 0x08 w) :: .datapath :: rest } = .next u ∧
      u.result.toNat = len7 s.operand ∧ u.code = .ok ∧ u.count = 0 ∧ u.busy = false ∧
      u.phase = .idle ∧ u.cmdLost = false ∧ u.err = none ∧ u.operand = w ∧ u.params = s.params ∧
      u.srcTaken = s.srcTaken ∧ u.sinkStream = s.sinkStream ∧ u.schedule = rest) ∧
    (∃ t u, exec .lenN s = .next t ∧
      Host.Core.run core 3
          { t with schedule := .host (.read 64 a) :: .host (.write 64 0x08 w) :: .datapath :: rest } = .next u ∧
      u.result.toNat = len7 (lowBits s.params.nativeWidth s.operand) ∧ u.code = .ok ∧ u.count = 0 ∧
      u.busy = false ∧ u.phase = .idle ∧ u.cmdLost = false ∧ u.err = none ∧ u.operand = w ∧
      u.params = s.params ∧ u.srcTaken = s.srcTaken ∧ u.sinkStream = s.sinkStream ∧
      u.schedule = rest)

/-! ### The Decoder's phases -/

/-- R43: what the block sees of the Source's answer. -/
def Obligations.ExactRequestNeverSeesEmpty : Prop :=
  ∀ (kind : RequestKind) (b : Byte) (e : Config.IoErr),
    srcRead kind (.byte b) = .byte b ∧ srcRead kind (.err e) = .err e ∧
    srcRead .upTo .empty = .empty ∧ srcRead .exact .empty = .err .unexpectedEnd ∧
    ∀ a, srcRead .exact a ≠ .empty

/-- R41: when the Source may step, and the kind of the current request. -/
def Obligations.SourceStepsExactlyWhileDecoding : Prop :=
  ∀ (s : State) (a : SrcAnswer) (rest : List Move), s.schedule = .source a :: rest →
    ((s.phase = .decFirst ∨ s.phase = .decMid ∨ s.phase = .decLast) → ∃ t, step s = .next t) ∧
    (s.phase ≠ .decFirst → s.phase ≠ .decMid → s.phase ≠ .decLast →
      step s = .fault (.notEnabled .source)) ∧
    (requestKind s = .upTo ↔ s.phase = .decFirst ∧ s.opk = .trydec)

/-- R76: the first byte. `deliver` is R83's. -/
def Obligations.FirstByteStep : Prop :=
  ∀ (s : State) (b : Byte) (rest : List Move), s.phase = .decFirst →
    s.schedule = .source (.byte b) :: rest →
    step s = .next
      (if b.toNat < 0x80 then
        deliver (BitVec.ofNat 64 b.toNat)
          { s with schedule := rest, srcTaken := s.srcTaken ++ [b], cnt := s.cnt + 1 }
      else
        { s with schedule := rest, srcTaken := s.srcTaken ++ [b], cnt := s.cnt + 1,
                 acc := BitVec.ofNat 64 (b.toNat - 0x80), off := 7, phase := .decMid })

/-- R77: TRYDEC on an empty source. -/
def Obligations.EmptySourceUnderTrydecIsAbsent : Prop :=
  ∀ (s : State) (rest : List Move), s.phase = .decFirst → s.opk = .trydec →
    s.schedule = .source .empty :: rest →
    step s = .next { s with schedule := rest, count := 0, code := .absent, busy := false, phase := .idle }

/-- R78, R80, R82: an error ends a decode with SRC_ERR at any of its requests, and so does a missing byte
under an Exact request: the first of a DEC, and the second to tenth of DEC and TRYDEC alike. The drawn
COUNT is a free value (R24). -/
def Obligations.SourceErrorEndsTheDecode : Prop :=
  ∀ (s : State) (a : SrcAnswer) (e : Config.IoErr) (rest : List Move),
    (s.phase = .decFirst ∧ (a = .err e ∨ (a = .empty ∧ e = .unexpectedEnd ∧ s.opk ≠ .trydec))) ∨
      ((s.phase = .decMid ∨ s.phase = .decLast) ∧ (a = .err e ∨ (a = .empty ∧ e = .unexpectedEnd))) →
    s.schedule = .source a :: rest →
    step s = .next { s with schedule := rest, err := some e, count := Config.freeCount s.draws,
                            draws := s.draws + 1, code := .srcErr, busy := false, phase := .idle }

/-- R79: an interior byte. `deliver` is R83's. -/
def Obligations.InteriorByteStep : Prop :=
  ∀ (s : State) (c : Byte) (rest : List Move), s.phase = .decMid →
    s.schedule = .source (.byte c) :: rest →
    step s = .next
      (if c.toNat < 0x80 then
        deliver (s.acc + (BitVec.ofNat 64 (c.toNat % 128) <<< s.off.toNat))
          { s with schedule := rest, srcTaken := s.srcTaken ++ [c], cnt := s.cnt + 1,
                   acc := s.acc + (BitVec.ofNat 64 (c.toNat % 128) <<< s.off.toNat) }
      else
        { s with schedule := rest, srcTaken := s.srcTaken ++ [c], cnt := s.cnt + 1,
                 acc := s.acc + (BitVec.ofNat 64 (c.toNat % 128) <<< s.off.toNat),
                 off := s.off + 7,
                 phase := if s.off + 7 = 63 then .decLast else .decMid })

/-- R81: the tenth byte is exactly 0x01 or the decode overflows. `deliver` is R83's. -/
def Obligations.TenthByteOverflowCheck : Prop :=
  ∀ (s : State) (d : Byte) (rest : List Move), s.phase = .decLast →
    s.schedule = .source (.byte d) :: rest →
    step s = .next
      (if d = 0x01 then
        deliver (s.acc + BitVec.ofNat 64 (2 ^ 63))
          { s with schedule := rest, srcTaken := s.srcTaken ++ [d], cnt := s.cnt + 1,
                   acc := s.acc + BitVec.ofNat 64 (2 ^ 63) }
      else
        { s with schedule := rest, srcTaken := s.srcTaken ++ [d], cnt := s.cnt + 1,
                 count := Config.freeCount s.draws, draws := s.draws + 1, code := .overflow,
                 busy := false, phase := .idle })

/-- R83: delivery and narrowing. -/
def Obligations.DeliveryAndNarrowing : Prop :=
  ∀ (v : Word) (s : State), deliver v s =
    if s.nw = false ∨ s.params.nativeWidth = .w64 ∨ v.toNat < 2 ^ s.params.nativeWidth.bits then
      { s with result := v, count := s.cnt, code := .ok, busy := false, phase := .idle }
    else if s.params.narrowReject = true then
      { s with count := Config.freeCount s.draws, draws := s.draws + 1, code := .narrowOvf,
               busy := false, phase := .idle }
    else
      { s with result := lowBits s.params.nativeWidth v, count := s.cnt, code := .ok, busy := false,
               phase := .idle }

/-- R84, first part: the decoder's additions are ORs of disjoint bits and never wrap. -/
def Obligations.DecoderAdditionsNeverCarry : Prop :=
  ∀ (s : State) (c : Byte), Inv s →
    (s.phase = .decMid →
      s.acc + ((payload c).setWidth 64 <<< s.off.toNat) =
        s.acc ||| ((payload c).setWidth 64 <<< s.off.toNat) ∧
      (s.acc + ((payload c).setWidth 64 <<< s.off.toNat)).toNat =
        s.acc.toNat + (payload c).toNat * 2 ^ s.off.toNat) ∧
    (s.phase = .decLast →
      addTopBit s = s.acc ||| BitVec.ofNat 64 (2 ^ 63) ∧ (addTopBit s).toNat = s.acc.toNat + 2 ^ 63)

/-! ### Whole decodes -/

/-- R86: from the accept of a decode, the phase rules compute `outcome` of the Source's answers, with its
report, its frame and the bytes it consumed; and while the answers do not settle the outcome, the command
does not complete. -/
def Obligations.DecodePhasesComputeOutcome : Prop :=
  ∀ (s : State) (answers : List SrcAnswer) (rest : List Move), s.phase = .decFirst → s.cnt = 0 →
    (∀ o left, outcome (requestKind s) answers = some (o, left) → ∃ t,
      Host.Core.run core (answers.length - left.length)
          { s with schedule := answers.map Move.source ++ rest } = .next t ∧
      decodeReport o s t ∧ t.busy = false ∧ t.phase = .idle ∧
      t.srcTaken = s.srcTaken ++ bytesOf (answers.take (answers.length - left.length)) ∧
      t.schedule = left.map Move.source ++ rest ∧
      t.params = s.params ∧ t.operand = s.operand ∧ t.cmdLost = s.cmdLost ∧
      t.sinkStream = s.sinkStream ∧ t.hostReads = s.hostReads) ∧
    (outcome (requestKind s) answers = none → ∃ t,
      Host.Core.run core answers.length { s with schedule := answers.map Move.source ++ rest } = .next t ∧
      decoding t.phase = true ∧ t.busy = s.busy ∧ t.code = s.code ∧ t.result = s.result)

/-- R85: ten answers of any kind always end a decode, and no step takes an eleventh. -/
def Obligations.DecodeEndsWithinTenAnswers : Prop :=
  ∀ (s : State) (answers : List SrcAnswer) (rest : List Move), s.phase = .decFirst →
    answers.length = 10 → ∃ k t, 1 ≤ k ∧ k ≤ 10 ∧
      Host.Core.run core k { s with schedule := answers.map Move.source ++ rest } = .next t ∧
      t.phase = .idle ∧ t.schedule = (answers.drop k).map Move.source ++ rest

/-- R67: the outcome of R86 is Ok exactly for the sequences in `Accepted`, with their value, their length
and nothing consumed after them. The outcome stands before narrowing: DEC.N and TRYDEC.N may still end such a
sequence with NARROW_OVF (R83). -/
def Obligations.AcceptedSequencesAreThoseDecodedOk : Prop :=
  ∀ (kind : RequestKind) (answers left : List SrcAnswer) (v k : Nat),
    outcome kind answers = some (.ok v k, left) ↔
      ∃ bs : List Byte, answers = bs.map SrcAnswer.byte ++ left ∧ Accepted bs ∧
        v = varintValue bs ∧ k = bs.length

/-- R67: the ranges of the values of accepted sequences. -/
def Obligations.AcceptedValueRanges : Prop :=
  ∀ bs : List Byte, Accepted bs →
    (bs.length ≤ 9 → varintValue bs < 2 ^ 63) ∧
    (bs.length = 10 → 2 ^ 63 ≤ varintValue bs ∧ varintValue bs < 2 ^ 64)

/-- A whole DEC or TRYDEC command of every width, from its issue to its end: fed an accepted sequence, it
completes with the sequence's value, narrowed where R83 says so. -/
def Obligations.DecodeCommandsCompleteOnAcceptedBytes : Prop :=
  ∀ (s : State) (bs : List Byte) (rest : List Move) (i : Instr),
    i = .dec64 ∨ i = .decN ∨ i = .trydec64 ∨ i = .trydecN → s.phase = .idle → Accepted bs →
    ∃ t u, exec i s = .next t ∧
      Host.Core.run core bs.length
          { t with schedule := bs.map (fun b => Move.source (.byte b)) ++ rest } = .next u ∧
      decodeReport (.ok (varintValue bs) bs.length)
        { s with nw := (i == .decN || i == .trydecN), err := none } u ∧
      u.busy = false ∧ u.phase = .idle ∧ u.cmdLost = false ∧ u.srcTaken = s.srcTaken ++ bs ∧
      u.operand = s.operand ∧ u.params = s.params ∧ u.sinkStream = s.sinkStream ∧
      u.hostReads = s.hostReads ∧ u.schedule = rest

/-- R87: the round trip, from a ListSource with no failure that goes on after the varint. The block, the
Host's program and the ListSource are a `System` (log 16). -/
def Obligations.RoundTrip : Prop :=
  ∀ (y : System) (v : Word) (more : List Byte) (n : Nat), y.block.phase = .idle →
    y.program = [.issue .dec64] → y.source = ⟨enc v ++ more, none, n⟩ →
    ∃ z, y.run (.host :: List.replicate (len7 v) .source) = .next z ∧
      z.block.code = .ok ∧ z.block.result = v ∧ z.block.count.toNat = len7 v ∧
      z.block.busy = false ∧ z.source.bytes = more

/-! ### The Encoder -/

/-- R45: when the Sink may step, and that exactly a byte it answers Ok is appended. -/
def Obligations.SinkStepsExactlyWhileEncoding : Prop :=
  ∀ (s : State) (a : SinkAnswer) (rest : List Move), s.schedule = .sink a :: rest →
    (s.phase = .encEmit → ∃ t, step s = .next t ∧
      t.sinkStream = s.sinkStream ++ (match a with | .ok => [offeredByte s.rem] | .err _ => [])) ∧
    (s.phase ≠ .encEmit → step s = .fault (.notEnabled .sink))

/-- R92: the offered byte, by arithmetic. -/
def Obligations.OfferedByteByArithmetic : Prop :=
  ∀ v : Word, (offeredByte v).toNat =
    if v.toNat / 2 ^ 7 = 0 then v.toNat else v.toNat % 2 ^ 7 + 0x80

/-- R93: the Sink accepts the byte. -/
def Obligations.SinkAcceptsStep : Prop :=
  ∀ (s : State) (rest : List Move), s.phase = .encEmit → s.schedule = .sink .ok :: rest →
    step s = .next
      (if s.rem.toNat < 2 ^ 7 then
        { s with schedule := rest, sinkStream := s.sinkStream ++ [BitVec.ofNat 8 s.rem.toNat],
                 cnt := s.cnt + 1, rem := 0, count := s.cnt + 1, code := .ok, busy := false,
                 phase := .idle }
      else
        { s with schedule := rest,
                 sinkStream := s.sinkStream ++ [BitVec.ofNat 8 (s.rem.toNat % 2 ^ 7 + 2 ^ 7)],
                 cnt := s.cnt + 1, rem := BitVec.ofNat 64 (s.rem.toNat / 2 ^ 7) })

/-- R94: the Sink fails. The drawn COUNT is a free value (R24). -/
def Obligations.SinkFailsStep : Prop :=
  ∀ (s : State) (e : Config.IoErr) (rest : List Move), s.phase = .encEmit →
    s.schedule = .sink (.err e) :: rest →
    step s = .next { s with schedule := rest, err := some e, count := Config.freeCount s.draws,
                            draws := s.draws + 1, code := .sinkErr, busy := false, phase := .idle }

/-- R95: the recursion of `enc`, with no cut. -/
def Obligations.EncodingRecursion : Prop :=
  ∀ v : Word, enc v =
    if v.toNat / 2 ^ 7 = 0 then [BitVec.ofNat 8 v.toNat]
    else BitVec.ofNat 8 (v.toNat % 2 ^ 7 + 2 ^ 7) :: enc (BitVec.ofNat 64 (v.toNat / 2 ^ 7))

/-- R72, R96: the length function gives the number of bytes the encoder writes. -/
def Obligations.LengthEqualsEncodedBytes : Prop :=
  ∀ v : Word, (enc v).length = len7 v

/-- R97: the encoding is accepted, has the value, ends in a nonzero byte unless the value is 0, and is
minimal. -/
def Obligations.EncodingIsMinimalAndAccepted : Prop :=
  ∀ v : Word, Accepted (enc v) ∧ varintValue (enc v) = v.toNat ∧
    (v ≠ 0 → (enc v).getLast? ≠ some 0) ∧
    ((enc v).length = 10 → (enc v).getLast? = some 0x01) ∧
    ∀ bs : List Byte, Accepted bs → varintValue bs = v.toNat → (enc v).length ≤ bs.length

/-- A whole ENC.64 or ENC.N command (R98, R99), from its issue to its end, when the Sink always answers
Ok: the bytes offered and accepted are `enc` of the operand. -/
def Obligations.EncodeCommandsComplete : Prop :=
  ∀ (s : State) (i : Instr) (v : Word) (rest : List Move), s.phase = .idle →
    (i = .enc64 ∧ v = s.operand) ∨ (i = .encN ∧ v = lowBits s.params.nativeWidth s.operand) →
    ∃ t u, exec i s = .next t ∧
      Host.Core.run core (len7 v)
          { t with schedule := List.replicate (len7 v) (.sink .ok) ++ rest } = .next u ∧
      u.sinkStream = s.sinkStream ++ enc v ∧ u.code = .ok ∧ u.count.toNat = len7 v ∧
      u.busy = false ∧ u.phase = .idle ∧ u.cmdLost = false ∧ u.err = none ∧ u.result = s.result ∧
      u.operand = s.operand ∧ u.params = s.params ∧ u.srcTaken = s.srcTaken ∧
      u.hostReads = s.hostReads ∧ u.schedule = rest

/-- R98, R94: a ListSink that fails on the j-th byte of an encode holds exactly the bytes before it, and
the error is reported unchanged. The block and the ListSink are a `System` (log 16). -/
def Obligations.FailingSinkKeepsTheBytesBeforeIt : Prop :=
  ∀ (y : System) (j : Nat) (e : Config.IoErr), y.block.phase = .idle →
    y.program = [.issue .enc64] → j < len7 y.block.operand →
    y.sink.failure = some (y.sink.out.length + j, e) →
    ∃ z, y.run (.host :: List.replicate (j + 1) .sink) = .next z ∧
      z.sink.out = y.sink.out ++ (enc y.block.operand).take j ∧ z.block.code = .sinkErr ∧
      z.block.err = some e ∧ z.block.busy = false ∧ z.block.result = y.block.result

/-! ### Exceptions and reset -/

/-- R105, with R101's records: entry to each exception, and that nothing else changes. The drawn COUNT is
a free value (R24). -/
def Obligations.ExceptionEntry : Prop :=
  ∀ (s : State) (e : Config.IoErr),
    takeException (.srcErr e) s =
      { s with err := some e, count := Config.freeCount s.draws, draws := s.draws + 1,
               code := .srcErr, busy := false, phase := .idle } ∧
    takeException .overflow s =
      { s with count := Config.freeCount s.draws, draws := s.draws + 1, code := .overflow,
               busy := false, phase := .idle } ∧
    takeException (.sinkErr e) s =
      { s with err := some e, count := Config.freeCount s.draws, draws := s.draws + 1,
               code := .sinkErr, busy := false, phase := .idle } ∧
    takeException .illegalCmd s =
      { s with count := 0, code := .illegalCmd, busy := false, phase := .idle } ∧
    takeException .narrowOvf s =
      { s with count := Config.freeCount s.draws, draws := s.draws + 1, code := .narrowOvf,
               busy := false, phase := .idle }

/-- R114: the reset input, in any phase. Of the registers to which R36 gives no value nothing is said. -/
def Obligations.ResetInputRestoresTheResetValues : Prop :=
  ∀ (s : State) (rest : List Move), s.schedule = .reset :: rest → ∃ t, step s = .next t ∧
    t.phase = .idle ∧ t.busy = false ∧ t.code = .none ∧ t.count = 0 ∧ t.cmdLost = false ∧
    t.err = none ∧ t.operand = 0 ∧ t.result = 0 ∧ t.params = s.params ∧
    t.srcTaken = s.srcTaken ∧ t.sinkStream = s.sinkStream

/-- R36: the values of the state after reset that the spec gives, and what a Host then reads. -/
def Obligations.ResetStateValues : Prop :=
  State.reset.operand = 0 ∧ State.reset.result = 0 ∧ State.reset.busy = false ∧
  State.reset.cmdLost = false ∧ State.reset.code = .none ∧ State.reset.count = 0 ∧
  State.reset.err = none ∧ State.reset.phase = .idle ∧
  ∀ a, a % 8 = 0 → readValue a State.reset = 0

/-! ### Invariants and whole-machine rules -/

/-- The invariant holds at reset, with any parameters and anything scheduled (CNT after reset is log 8's
choice, and the range of R32 is the one clause that reads it). -/
def Obligations.InvariantHoldsAtStart : Prop :=
  ∀ params moves, Inv (start params moves)

/-- Every step keeps the invariant, from every state that has it. -/
def Obligations.StepKeepsTheInvariant : Prop :=
  ∀ s : State, Inv s → Keeps Inv (step s)

/-- R35: its six clauses hold in every state that a run from reset reaches. -/
def Obligations.ReachableStatesSatisfyTheSequencingClauses : Prop :=
  ∀ s : State, Reachable s → Sequencing s

/-- R21, R102: RESULT changes only in the step of an OK completion of LEN, DEC or TRYDEC, or at reset. -/
def Obligations.ResultChangesOnlyAtAnOkCompletion : Prop :=
  ∀ s t : State, step s = .next t → t.result ≠ s.result →
    (t.code = .ok ∧ t.busy = false ∧ (s.phase = .lenExec ∨ decoding s.phase = true)) ∨
      s.schedule.head? = some .reset

/-- R106: the report of a completed command stays until the next CMD write or reset. -/
def Obligations.ReportStaysUntilTheNextCommand : Prop :=
  ∀ s t : State, s.phase = .idle → step s = .next t →
    (∀ w, s.schedule.head? ≠ some (.host (.write 64 0x00 w))) → s.schedule.head? ≠ some .reset →
    t.code = s.code ∧ t.count = s.count ∧ t.err = s.err ∧ t.result = s.result ∧
      t.cmdLost = s.cmdLost ∧ t.busy = s.busy ∧ t.phase = .idle

/-- R20: OPERAND changes only by a Host write to it, to the value written, or at reset. -/
def Obligations.OperandChangesOnlyByHostWrite : Prop :=
  ∀ s t : State, step s = .next t → t.operand ≠ s.operand →
    s.schedule.head? = some (.host (.write 64 0x08 t.operand)) ∨ s.schedule.head? = some .reset

/-- R22: CMD_LOST is set only by a CMD write while a command is in progress, and cleared only by a CMD
write in IDLE or at reset. -/
def Obligations.CmdLostChangesOnlyByCmdWrites : Prop :=
  ∀ s t : State, step s = .next t → t.cmdLost ≠ s.cmdLost →
    (∃ w, s.schedule.head? = some (.host (.write 64 0x00 w)) ∧ (t.cmdLost = true ↔ s.phase ≠ .idle)) ∨
      (s.schedule.head? = some .reset ∧ t.cmdLost = false)

/-- R34: no step changes the parameters. -/
def Obligations.NoStepChangesTheParameters : Prop :=
  ∀ s t : State, step s = .next t → t.params = s.params

/-- R44, R46: the source's consumed bytes grow by exactly the byte answered, the sink's stream by exactly
the byte accepted. -/
def Obligations.StreamsGrowByTheAnsweredBytes : Prop :=
  ∀ s t : State, step s = .next t →
    t.srcTaken = s.srcTaken ++
      (match s.schedule with | .source (.byte b) :: _ => [b] | _ => []) ∧
    t.sinkStream = s.sinkStream ++
      (match s.schedule with | .sink .ok :: _ => [offeredByte s.rem] | _ => [])

/-- R20, R61: no Host access disturbs a command in progress, and no later step of the command depends on
what such an access changed. -/
def Obligations.HostCannotDisturbACommand : Prop :=
  (∀ (s t : State) (a : HostAccess), s.phase ≠ .idle → hostMove a s = .next t →
    withoutHost t = withoutHost s) ∧
  (∀ (s : State) (m : Move), (∀ a, m ≠ .host a) →
    seen withoutHost (move m (withoutHost s)) = seen withoutHost (move m s))

/-- R16: the report of the last command is no input to the next. -/
def Obligations.LastReportIsNoInput : Prop :=
  ∀ (s : State) (i : Instr) (c : Code) (n : Count) (e : Option Config.IoErr) (l : Bool) (r : Word),
    s.phase = .idle →
    exec i { s with result := r, code := c, count := n, err := e, cmdLost := l } =
      seen (fun t => { t with result := r }) (exec i s)

/-- R8, R25: errors are opaque. The block only carries them: with every error it holds or is answered
replaced by another, whichever ones those are, each step does the same, with its errors replaced. Only
`unexpectedEnd`, which the block itself makes (R43), must stand for itself. -/
def Obligations.ErrorsAreCarriedUntested : Prop :=
  ∀ f : Config.IoErr → Config.IoErr, f .unexpectedEnd = .unexpectedEnd → ∀ s : State,
    seen withoutReads (step (renameErrors f s)) = seen (renameErrors f) (step s)

/-- U18, R29 to R33: internal registers that no rule reads before writing them never reach an observable
part of the state, so the reset values of log 8 decide nothing a rule can observe. -/
def Obligations.DeadRegistersAreNeverObserved : Prop :=
  ∀ s t : State, observable s = observable t →
    seen observable (step s) = seen observable (step t)

/-- R6: with W_N = 64 every native-width command behaves like its 64-bit command, step by step. -/
def Obligations.NativeWidth64IsThe64BitCommand : Prop :=
  (∀ s : State, s.params.nativeWidth = .w64 →
    seen withoutWidth (exec .lenN s) = seen withoutWidth (exec .len64 s) ∧
    seen withoutWidth (exec .decN s) = seen withoutWidth (exec .dec64 s) ∧
    seen withoutWidth (exec .trydecN s) = seen withoutWidth (exec .trydec64 s) ∧
    seen withoutWidth (exec .encN s) = seen withoutWidth (exec .enc64 s)) ∧
  (∀ s t : State, s.params.nativeWidth = .w64 → withoutWidth s = withoutWidth t →
    seen withoutWidth (step s) = seen withoutWidth (step t))

/-! ### Several blocks, and the reference agents -/

/-- R111: a platform steps one block and leaves every other as it was; one with a shared Source or Sink is
refused (log 14). -/
def Obligations.BlocksOfAPlatformAreIndependent : Prop :=
  ∀ (p : Platform) (k : Nat),
    ((∃ (i j : Nat) (x y : Attached), i ≠ j ∧ p[i]? = some x ∧ p[j]? = some y ∧ (x.source = y.source ∨ x.sink = y.sink)) →
      p.step k = .refused .sharedStream) ∧
    (∀ q, p.step k = .next q → (∀ j, j ≠ k → q[j]? = p[j]?) ∧
      ∃ x t, p[k]? = some x ∧ step x.block = .next t ∧ q[k]? = some ⟨t, x.source, x.sink⟩)

/-- R47: what the reference environments answer, and what they hold afterwards (log 16). -/
def Obligations.ReferenceEnvironments : Prop :=
  (∀ (src : ListSource) (e : Config.IoErr), src.failure = some (src.consumed, e) →
    src.answer = .err e ∧ src.afterAnswer = src) ∧
  (∀ (src : ListSource) (b : Byte) (more : List Byte),
    (∀ k e, src.failure = some (k, e) → src.consumed ≠ k) →
    (src.bytes = b :: more → src.answer = .byte b ∧ src.afterAnswer.bytes = more ∧
      src.afterAnswer.consumed = src.consumed + 1 ∧ src.afterAnswer.failure = src.failure) ∧
    (src.bytes = [] → src.answer = .empty ∧ src.afterAnswer = src)) ∧
  (∀ (snk : ListSink) (b : Byte) (e : Config.IoErr), snk.failure = some (snk.out.length, e) →
    snk.answer = .err e ∧ snk.afterOffer b = snk) ∧
  (∀ (snk : ListSink) (b : Byte), (∀ k e, snk.failure = some (k, e) → snk.out.length ≠ k) →
    snk.answer = .ok ∧ (snk.afterOffer b).out = snk.out ++ [b] ∧
      (snk.afterOffer b).failure = snk.failure)

/-- R69: one turn of the Host at `wait` reads STATUS, changes no register, and ends the wait exactly when
the value read has BUSY = 0; `issue` writes the command's word, which runs it. The turns are log 16's. -/
def Obligations.HostStatementsRun : Prop :=
  ∀ (y : System) (rest : List HostStmt),
    (y.program = .wait :: rest → ∃ z, y.turn .host = .next z ∧
      z.program = (if y.block.busy then .wait :: rest else rest) ∧
      z.block = { y.block with hostReads :=
        y.block.hostReads ++ [(0x18, BitVec.ofNat 64 (statusNumber y.block))] }) ∧
    (∀ i, y.program = .issue i :: rest → ∃ t, exec i y.block = .next t ∧
      y.turn .host = .next { y with block := t, program := rest })
end

