-- ==== Sys2Proof/Laws/Decode.lean ====
section
/-! SUPPORT. The fields of a command word and the word of fields are inverse to each other (R56), which a
proof about all 2^64 words needs once. -/

namespace Sys2Proof

theorem wordOfFields_commandFields (w : Word) : wordOfFields (commandFields w) = w := by
  have h := w.isLt
  have hb : (BitVec.ofBool (w.getLsbD 3)).toNat = w.toNat / 8 % 2 := by
    rw [BitVec.getLsbD, Nat.testBit_eq_decide_div_mod_eq]
    rcases Nat.mod_two_eq_zero_or_one (w.toNat / 2 ^ 3) with h | h <;> simp at h <;> simp [h]
  apply BitVec.eq_of_toNat_eq
  simp only [wordOfFields, commandFields, BitVec.toNat_append, BitVec.extractLsb'_toNat, hb,
    Nat.shiftRight_eq_div_pow]
  rw [← Nat.shiftLeft_add_eq_or_of_lt (show w.toNat / 8 % 2 < 2 ^ 1 by omega),
    ← Nat.shiftLeft_add_eq_or_of_lt (show w.toNat / 2 ^ 0 % 2 ^ 3 < 2 ^ 3 by omega)]
  simp only [Nat.shiftLeft_eq]
  omega

end Sys2Proof
end

