-- ==== Sys2Proof/Laws/State.lean ====
section
/-! SUPPORT. What each named update of `Machine/Ops.lean` does to each field of the state: one lemma per
field per update. -/

namespace Sys2Proof.Machine

variable (s : State)

@[simp] theorem setSchedule_params (ms : List Move) : (setSchedule ms s).params = s.params := rfl
@[simp] theorem setSchedule_operand (ms : List Move) : (setSchedule ms s).operand = s.operand := rfl
@[simp] theorem setSchedule_result (ms : List Move) : (setSchedule ms s).result = s.result := rfl
@[simp] theorem setSchedule_busy (ms : List Move) : (setSchedule ms s).busy = s.busy := rfl
@[simp] theorem setSchedule_cmdLost (ms : List Move) : (setSchedule ms s).cmdLost = s.cmdLost := rfl
@[simp] theorem setSchedule_code (ms : List Move) : (setSchedule ms s).code = s.code := rfl
@[simp] theorem setSchedule_count (ms : List Move) : (setSchedule ms s).count = s.count := rfl
@[simp] theorem setSchedule_err (ms : List Move) : (setSchedule ms s).err = s.err := rfl
@[simp] theorem setSchedule_phase (ms : List Move) : (setSchedule ms s).phase = s.phase := rfl
@[simp] theorem setSchedule_opk (ms : List Move) : (setSchedule ms s).opk = s.opk := rfl
@[simp] theorem setSchedule_nw (ms : List Move) : (setSchedule ms s).nw = s.nw := rfl
@[simp] theorem setSchedule_rem (ms : List Move) : (setSchedule ms s).rem = s.rem := rfl
@[simp] theorem setSchedule_acc (ms : List Move) : (setSchedule ms s).acc = s.acc := rfl
@[simp] theorem setSchedule_off (ms : List Move) : (setSchedule ms s).off = s.off := rfl
@[simp] theorem setSchedule_cnt (ms : List Move) : (setSchedule ms s).cnt = s.cnt := rfl
@[simp] theorem setSchedule_srcTaken (ms : List Move) : (setSchedule ms s).srcTaken = s.srcTaken := rfl
@[simp] theorem setSchedule_sinkStream (ms : List Move) : (setSchedule ms s).sinkStream = s.sinkStream := rfl
@[simp] theorem setSchedule_hostReads (ms : List Move) : (setSchedule ms s).hostReads = s.hostReads := rfl
@[simp] theorem setSchedule_draws (ms : List Move) : (setSchedule ms s).draws = s.draws := rfl
@[simp] theorem setSchedule_schedule (ms : List Move) : (setSchedule ms s).schedule = ms := rfl

@[simp] theorem setOperand_params (w : Word) : (setOperand w s).params = s.params := rfl
@[simp] theorem setOperand_operand (w : Word) : (setOperand w s).operand = w := rfl
@[simp] theorem setOperand_result (w : Word) : (setOperand w s).result = s.result := rfl
@[simp] theorem setOperand_busy (w : Word) : (setOperand w s).busy = s.busy := rfl
@[simp] theorem setOperand_cmdLost (w : Word) : (setOperand w s).cmdLost = s.cmdLost := rfl
@[simp] theorem setOperand_code (w : Word) : (setOperand w s).code = s.code := rfl
@[simp] theorem setOperand_count (w : Word) : (setOperand w s).count = s.count := rfl
@[simp] theorem setOperand_err (w : Word) : (setOperand w s).err = s.err := rfl
@[simp] theorem setOperand_phase (w : Word) : (setOperand w s).phase = s.phase := rfl
@[simp] theorem setOperand_opk (w : Word) : (setOperand w s).opk = s.opk := rfl
@[simp] theorem setOperand_nw (w : Word) : (setOperand w s).nw = s.nw := rfl
@[simp] theorem setOperand_rem (w : Word) : (setOperand w s).rem = s.rem := rfl
@[simp] theorem setOperand_acc (w : Word) : (setOperand w s).acc = s.acc := rfl
@[simp] theorem setOperand_off (w : Word) : (setOperand w s).off = s.off := rfl
@[simp] theorem setOperand_cnt (w : Word) : (setOperand w s).cnt = s.cnt := rfl
@[simp] theorem setOperand_srcTaken (w : Word) : (setOperand w s).srcTaken = s.srcTaken := rfl
@[simp] theorem setOperand_sinkStream (w : Word) : (setOperand w s).sinkStream = s.sinkStream := rfl
@[simp] theorem setOperand_hostReads (w : Word) : (setOperand w s).hostReads = s.hostReads := rfl
@[simp] theorem setOperand_draws (w : Word) : (setOperand w s).draws = s.draws := rfl
@[simp] theorem setOperand_schedule (w : Word) : (setOperand w s).schedule = s.schedule := rfl

@[simp] theorem setResult_params (v : Word) : (setResult v s).params = s.params := rfl
@[simp] theorem setResult_operand (v : Word) : (setResult v s).operand = s.operand := rfl
@[simp] theorem setResult_result (v : Word) : (setResult v s).result = v := rfl
@[simp] theorem setResult_busy (v : Word) : (setResult v s).busy = s.busy := rfl
@[simp] theorem setResult_cmdLost (v : Word) : (setResult v s).cmdLost = s.cmdLost := rfl
@[simp] theorem setResult_code (v : Word) : (setResult v s).code = s.code := rfl
@[simp] theorem setResult_count (v : Word) : (setResult v s).count = s.count := rfl
@[simp] theorem setResult_err (v : Word) : (setResult v s).err = s.err := rfl
@[simp] theorem setResult_phase (v : Word) : (setResult v s).phase = s.phase := rfl
@[simp] theorem setResult_opk (v : Word) : (setResult v s).opk = s.opk := rfl
@[simp] theorem setResult_nw (v : Word) : (setResult v s).nw = s.nw := rfl
@[simp] theorem setResult_rem (v : Word) : (setResult v s).rem = s.rem := rfl
@[simp] theorem setResult_acc (v : Word) : (setResult v s).acc = s.acc := rfl
@[simp] theorem setResult_off (v : Word) : (setResult v s).off = s.off := rfl
@[simp] theorem setResult_cnt (v : Word) : (setResult v s).cnt = s.cnt := rfl
@[simp] theorem setResult_srcTaken (v : Word) : (setResult v s).srcTaken = s.srcTaken := rfl
@[simp] theorem setResult_sinkStream (v : Word) : (setResult v s).sinkStream = s.sinkStream := rfl
@[simp] theorem setResult_hostReads (v : Word) : (setResult v s).hostReads = s.hostReads := rfl
@[simp] theorem setResult_draws (v : Word) : (setResult v s).draws = s.draws := rfl
@[simp] theorem setResult_schedule (v : Word) : (setResult v s).schedule = s.schedule := rfl

@[simp] theorem setCount_params (n : Count) : (setCount n s).params = s.params := rfl
@[simp] theorem setCount_operand (n : Count) : (setCount n s).operand = s.operand := rfl
@[simp] theorem setCount_result (n : Count) : (setCount n s).result = s.result := rfl
@[simp] theorem setCount_busy (n : Count) : (setCount n s).busy = s.busy := rfl
@[simp] theorem setCount_cmdLost (n : Count) : (setCount n s).cmdLost = s.cmdLost := rfl
@[simp] theorem setCount_code (n : Count) : (setCount n s).code = s.code := rfl
@[simp] theorem setCount_count (n : Count) : (setCount n s).count = n := rfl
@[simp] theorem setCount_err (n : Count) : (setCount n s).err = s.err := rfl
@[simp] theorem setCount_phase (n : Count) : (setCount n s).phase = s.phase := rfl
@[simp] theorem setCount_opk (n : Count) : (setCount n s).opk = s.opk := rfl
@[simp] theorem setCount_nw (n : Count) : (setCount n s).nw = s.nw := rfl
@[simp] theorem setCount_rem (n : Count) : (setCount n s).rem = s.rem := rfl
@[simp] theorem setCount_acc (n : Count) : (setCount n s).acc = s.acc := rfl
@[simp] theorem setCount_off (n : Count) : (setCount n s).off = s.off := rfl
@[simp] theorem setCount_cnt (n : Count) : (setCount n s).cnt = s.cnt := rfl
@[simp] theorem setCount_srcTaken (n : Count) : (setCount n s).srcTaken = s.srcTaken := rfl
@[simp] theorem setCount_sinkStream (n : Count) : (setCount n s).sinkStream = s.sinkStream := rfl
@[simp] theorem setCount_hostReads (n : Count) : (setCount n s).hostReads = s.hostReads := rfl
@[simp] theorem setCount_draws (n : Count) : (setCount n s).draws = s.draws := rfl
@[simp] theorem setCount_schedule (n : Count) : (setCount n s).schedule = s.schedule := rfl

@[simp] theorem setErr_params (e : Option Config.IoErr) : (setErr e s).params = s.params := rfl
@[simp] theorem setErr_operand (e : Option Config.IoErr) : (setErr e s).operand = s.operand := rfl
@[simp] theorem setErr_result (e : Option Config.IoErr) : (setErr e s).result = s.result := rfl
@[simp] theorem setErr_busy (e : Option Config.IoErr) : (setErr e s).busy = s.busy := rfl
@[simp] theorem setErr_cmdLost (e : Option Config.IoErr) : (setErr e s).cmdLost = s.cmdLost := rfl
@[simp] theorem setErr_code (e : Option Config.IoErr) : (setErr e s).code = s.code := rfl
@[simp] theorem setErr_count (e : Option Config.IoErr) : (setErr e s).count = s.count := rfl
@[simp] theorem setErr_err (e : Option Config.IoErr) : (setErr e s).err = e := rfl
@[simp] theorem setErr_phase (e : Option Config.IoErr) : (setErr e s).phase = s.phase := rfl
@[simp] theorem setErr_opk (e : Option Config.IoErr) : (setErr e s).opk = s.opk := rfl
@[simp] theorem setErr_nw (e : Option Config.IoErr) : (setErr e s).nw = s.nw := rfl
@[simp] theorem setErr_rem (e : Option Config.IoErr) : (setErr e s).rem = s.rem := rfl
@[simp] theorem setErr_acc (e : Option Config.IoErr) : (setErr e s).acc = s.acc := rfl
@[simp] theorem setErr_off (e : Option Config.IoErr) : (setErr e s).off = s.off := rfl
@[simp] theorem setErr_cnt (e : Option Config.IoErr) : (setErr e s).cnt = s.cnt := rfl
@[simp] theorem setErr_srcTaken (e : Option Config.IoErr) : (setErr e s).srcTaken = s.srcTaken := rfl
@[simp] theorem setErr_sinkStream (e : Option Config.IoErr) : (setErr e s).sinkStream = s.sinkStream := rfl
@[simp] theorem setErr_hostReads (e : Option Config.IoErr) : (setErr e s).hostReads = s.hostReads := rfl
@[simp] theorem setErr_draws (e : Option Config.IoErr) : (setErr e s).draws = s.draws := rfl
@[simp] theorem setErr_schedule (e : Option Config.IoErr) : (setErr e s).schedule = s.schedule := rfl

@[simp] theorem setRem_params (v : Word) : (setRem v s).params = s.params := rfl
@[simp] theorem setRem_operand (v : Word) : (setRem v s).operand = s.operand := rfl
@[simp] theorem setRem_result (v : Word) : (setRem v s).result = s.result := rfl
@[simp] theorem setRem_busy (v : Word) : (setRem v s).busy = s.busy := rfl
@[simp] theorem setRem_cmdLost (v : Word) : (setRem v s).cmdLost = s.cmdLost := rfl
@[simp] theorem setRem_code (v : Word) : (setRem v s).code = s.code := rfl
@[simp] theorem setRem_count (v : Word) : (setRem v s).count = s.count := rfl
@[simp] theorem setRem_err (v : Word) : (setRem v s).err = s.err := rfl
@[simp] theorem setRem_phase (v : Word) : (setRem v s).phase = s.phase := rfl
@[simp] theorem setRem_opk (v : Word) : (setRem v s).opk = s.opk := rfl
@[simp] theorem setRem_nw (v : Word) : (setRem v s).nw = s.nw := rfl
@[simp] theorem setRem_rem (v : Word) : (setRem v s).rem = v := rfl
@[simp] theorem setRem_acc (v : Word) : (setRem v s).acc = s.acc := rfl
@[simp] theorem setRem_off (v : Word) : (setRem v s).off = s.off := rfl
@[simp] theorem setRem_cnt (v : Word) : (setRem v s).cnt = s.cnt := rfl
@[simp] theorem setRem_srcTaken (v : Word) : (setRem v s).srcTaken = s.srcTaken := rfl
@[simp] theorem setRem_sinkStream (v : Word) : (setRem v s).sinkStream = s.sinkStream := rfl
@[simp] theorem setRem_hostReads (v : Word) : (setRem v s).hostReads = s.hostReads := rfl
@[simp] theorem setRem_draws (v : Word) : (setRem v s).draws = s.draws := rfl
@[simp] theorem setRem_schedule (v : Word) : (setRem v s).schedule = s.schedule := rfl

@[simp] theorem setAcc_params (v : Word) : (setAcc v s).params = s.params := rfl
@[simp] theorem setAcc_operand (v : Word) : (setAcc v s).operand = s.operand := rfl
@[simp] theorem setAcc_result (v : Word) : (setAcc v s).result = s.result := rfl
@[simp] theorem setAcc_busy (v : Word) : (setAcc v s).busy = s.busy := rfl
@[simp] theorem setAcc_cmdLost (v : Word) : (setAcc v s).cmdLost = s.cmdLost := rfl
@[simp] theorem setAcc_code (v : Word) : (setAcc v s).code = s.code := rfl
@[simp] theorem setAcc_count (v : Word) : (setAcc v s).count = s.count := rfl
@[simp] theorem setAcc_err (v : Word) : (setAcc v s).err = s.err := rfl
@[simp] theorem setAcc_phase (v : Word) : (setAcc v s).phase = s.phase := rfl
@[simp] theorem setAcc_opk (v : Word) : (setAcc v s).opk = s.opk := rfl
@[simp] theorem setAcc_nw (v : Word) : (setAcc v s).nw = s.nw := rfl
@[simp] theorem setAcc_rem (v : Word) : (setAcc v s).rem = s.rem := rfl
@[simp] theorem setAcc_acc (v : Word) : (setAcc v s).acc = v := rfl
@[simp] theorem setAcc_off (v : Word) : (setAcc v s).off = s.off := rfl
@[simp] theorem setAcc_cnt (v : Word) : (setAcc v s).cnt = s.cnt := rfl
@[simp] theorem setAcc_srcTaken (v : Word) : (setAcc v s).srcTaken = s.srcTaken := rfl
@[simp] theorem setAcc_sinkStream (v : Word) : (setAcc v s).sinkStream = s.sinkStream := rfl
@[simp] theorem setAcc_hostReads (v : Word) : (setAcc v s).hostReads = s.hostReads := rfl
@[simp] theorem setAcc_draws (v : Word) : (setAcc v s).draws = s.draws := rfl
@[simp] theorem setAcc_schedule (v : Word) : (setAcc v s).schedule = s.schedule := rfl

@[simp] theorem setOff_params (v : Offset) : (setOff v s).params = s.params := rfl
@[simp] theorem setOff_operand (v : Offset) : (setOff v s).operand = s.operand := rfl
@[simp] theorem setOff_result (v : Offset) : (setOff v s).result = s.result := rfl
@[simp] theorem setOff_busy (v : Offset) : (setOff v s).busy = s.busy := rfl
@[simp] theorem setOff_cmdLost (v : Offset) : (setOff v s).cmdLost = s.cmdLost := rfl
@[simp] theorem setOff_code (v : Offset) : (setOff v s).code = s.code := rfl
@[simp] theorem setOff_count (v : Offset) : (setOff v s).count = s.count := rfl
@[simp] theorem setOff_err (v : Offset) : (setOff v s).err = s.err := rfl
@[simp] theorem setOff_phase (v : Offset) : (setOff v s).phase = s.phase := rfl
@[simp] theorem setOff_opk (v : Offset) : (setOff v s).opk = s.opk := rfl
@[simp] theorem setOff_nw (v : Offset) : (setOff v s).nw = s.nw := rfl
@[simp] theorem setOff_rem (v : Offset) : (setOff v s).rem = s.rem := rfl
@[simp] theorem setOff_acc (v : Offset) : (setOff v s).acc = s.acc := rfl
@[simp] theorem setOff_off (v : Offset) : (setOff v s).off = v := rfl
@[simp] theorem setOff_cnt (v : Offset) : (setOff v s).cnt = s.cnt := rfl
@[simp] theorem setOff_srcTaken (v : Offset) : (setOff v s).srcTaken = s.srcTaken := rfl
@[simp] theorem setOff_sinkStream (v : Offset) : (setOff v s).sinkStream = s.sinkStream := rfl
@[simp] theorem setOff_hostReads (v : Offset) : (setOff v s).hostReads = s.hostReads := rfl
@[simp] theorem setOff_draws (v : Offset) : (setOff v s).draws = s.draws := rfl
@[simp] theorem setOff_schedule (v : Offset) : (setOff v s).schedule = s.schedule := rfl

@[simp] theorem setPhase_params (p : Phase) : (setPhase p s).params = s.params := rfl
@[simp] theorem setPhase_operand (p : Phase) : (setPhase p s).operand = s.operand := rfl
@[simp] theorem setPhase_result (p : Phase) : (setPhase p s).result = s.result := rfl
@[simp] theorem setPhase_busy (p : Phase) : (setPhase p s).busy = s.busy := rfl
@[simp] theorem setPhase_cmdLost (p : Phase) : (setPhase p s).cmdLost = s.cmdLost := rfl
@[simp] theorem setPhase_code (p : Phase) : (setPhase p s).code = s.code := rfl
@[simp] theorem setPhase_count (p : Phase) : (setPhase p s).count = s.count := rfl
@[simp] theorem setPhase_err (p : Phase) : (setPhase p s).err = s.err := rfl
@[simp] theorem setPhase_phase (p : Phase) : (setPhase p s).phase = p := rfl
@[simp] theorem setPhase_opk (p : Phase) : (setPhase p s).opk = s.opk := rfl
@[simp] theorem setPhase_nw (p : Phase) : (setPhase p s).nw = s.nw := rfl
@[simp] theorem setPhase_rem (p : Phase) : (setPhase p s).rem = s.rem := rfl
@[simp] theorem setPhase_acc (p : Phase) : (setPhase p s).acc = s.acc := rfl
@[simp] theorem setPhase_off (p : Phase) : (setPhase p s).off = s.off := rfl
@[simp] theorem setPhase_cnt (p : Phase) : (setPhase p s).cnt = s.cnt := rfl
@[simp] theorem setPhase_srcTaken (p : Phase) : (setPhase p s).srcTaken = s.srcTaken := rfl
@[simp] theorem setPhase_sinkStream (p : Phase) : (setPhase p s).sinkStream = s.sinkStream := rfl
@[simp] theorem setPhase_hostReads (p : Phase) : (setPhase p s).hostReads = s.hostReads := rfl
@[simp] theorem setPhase_draws (p : Phase) : (setPhase p s).draws = s.draws := rfl
@[simp] theorem setPhase_schedule (p : Phase) : (setPhase p s).schedule = s.schedule := rfl

@[simp] theorem anyCount_params : (anyCount s).params = s.params := rfl
@[simp] theorem anyCount_operand : (anyCount s).operand = s.operand := rfl
@[simp] theorem anyCount_result : (anyCount s).result = s.result := rfl
@[simp] theorem anyCount_busy : (anyCount s).busy = s.busy := rfl
@[simp] theorem anyCount_cmdLost : (anyCount s).cmdLost = s.cmdLost := rfl
@[simp] theorem anyCount_code : (anyCount s).code = s.code := rfl
@[simp] theorem anyCount_count : (anyCount s).count = Config.freeCount s.draws := rfl
@[simp] theorem anyCount_err : (anyCount s).err = s.err := rfl
@[simp] theorem anyCount_phase : (anyCount s).phase = s.phase := rfl
@[simp] theorem anyCount_opk : (anyCount s).opk = s.opk := rfl
@[simp] theorem anyCount_nw : (anyCount s).nw = s.nw := rfl
@[simp] theorem anyCount_rem : (anyCount s).rem = s.rem := rfl
@[simp] theorem anyCount_acc : (anyCount s).acc = s.acc := rfl
@[simp] theorem anyCount_off : (anyCount s).off = s.off := rfl
@[simp] theorem anyCount_cnt : (anyCount s).cnt = s.cnt := rfl
@[simp] theorem anyCount_srcTaken : (anyCount s).srcTaken = s.srcTaken := rfl
@[simp] theorem anyCount_sinkStream : (anyCount s).sinkStream = s.sinkStream := rfl
@[simp] theorem anyCount_hostReads : (anyCount s).hostReads = s.hostReads := rfl
@[simp] theorem anyCount_draws : (anyCount s).draws = s.draws + 1 := rfl
@[simp] theorem anyCount_schedule : (anyCount s).schedule = s.schedule := rfl

@[simp] theorem takeByte_params (b : Byte) : (takeByte b s).params = s.params := rfl
@[simp] theorem takeByte_operand (b : Byte) : (takeByte b s).operand = s.operand := rfl
@[simp] theorem takeByte_result (b : Byte) : (takeByte b s).result = s.result := rfl
@[simp] theorem takeByte_busy (b : Byte) : (takeByte b s).busy = s.busy := rfl
@[simp] theorem takeByte_cmdLost (b : Byte) : (takeByte b s).cmdLost = s.cmdLost := rfl
@[simp] theorem takeByte_code (b : Byte) : (takeByte b s).code = s.code := rfl
@[simp] theorem takeByte_count (b : Byte) : (takeByte b s).count = s.count := rfl
@[simp] theorem takeByte_err (b : Byte) : (takeByte b s).err = s.err := rfl
@[simp] theorem takeByte_phase (b : Byte) : (takeByte b s).phase = s.phase := rfl
@[simp] theorem takeByte_opk (b : Byte) : (takeByte b s).opk = s.opk := rfl
@[simp] theorem takeByte_nw (b : Byte) : (takeByte b s).nw = s.nw := rfl
@[simp] theorem takeByte_rem (b : Byte) : (takeByte b s).rem = s.rem := rfl
@[simp] theorem takeByte_acc (b : Byte) : (takeByte b s).acc = s.acc := rfl
@[simp] theorem takeByte_off (b : Byte) : (takeByte b s).off = s.off := rfl
@[simp] theorem takeByte_cnt (b : Byte) : (takeByte b s).cnt = s.cnt + 1 := rfl
@[simp] theorem takeByte_srcTaken (b : Byte) : (takeByte b s).srcTaken = s.srcTaken ++ [b] := rfl
@[simp] theorem takeByte_sinkStream (b : Byte) : (takeByte b s).sinkStream = s.sinkStream := rfl
@[simp] theorem takeByte_hostReads (b : Byte) : (takeByte b s).hostReads = s.hostReads := rfl
@[simp] theorem takeByte_draws (b : Byte) : (takeByte b s).draws = s.draws := rfl
@[simp] theorem takeByte_schedule (b : Byte) : (takeByte b s).schedule = s.schedule := rfl

@[simp] theorem putByte_params (b : Byte) : (putByte b s).params = s.params := rfl
@[simp] theorem putByte_operand (b : Byte) : (putByte b s).operand = s.operand := rfl
@[simp] theorem putByte_result (b : Byte) : (putByte b s).result = s.result := rfl
@[simp] theorem putByte_busy (b : Byte) : (putByte b s).busy = s.busy := rfl
@[simp] theorem putByte_cmdLost (b : Byte) : (putByte b s).cmdLost = s.cmdLost := rfl
@[simp] theorem putByte_code (b : Byte) : (putByte b s).code = s.code := rfl
@[simp] theorem putByte_count (b : Byte) : (putByte b s).count = s.count := rfl
@[simp] theorem putByte_err (b : Byte) : (putByte b s).err = s.err := rfl
@[simp] theorem putByte_phase (b : Byte) : (putByte b s).phase = s.phase := rfl
@[simp] theorem putByte_opk (b : Byte) : (putByte b s).opk = s.opk := rfl
@[simp] theorem putByte_nw (b : Byte) : (putByte b s).nw = s.nw := rfl
@[simp] theorem putByte_rem (b : Byte) : (putByte b s).rem = s.rem := rfl
@[simp] theorem putByte_acc (b : Byte) : (putByte b s).acc = s.acc := rfl
@[simp] theorem putByte_off (b : Byte) : (putByte b s).off = s.off := rfl
@[simp] theorem putByte_cnt (b : Byte) : (putByte b s).cnt = s.cnt + 1 := rfl
@[simp] theorem putByte_srcTaken (b : Byte) : (putByte b s).srcTaken = s.srcTaken := rfl
@[simp] theorem putByte_sinkStream (b : Byte) : (putByte b s).sinkStream = s.sinkStream ++ [b] := rfl
@[simp] theorem putByte_hostReads (b : Byte) : (putByte b s).hostReads = s.hostReads := rfl
@[simp] theorem putByte_draws (b : Byte) : (putByte b s).draws = s.draws := rfl
@[simp] theorem putByte_schedule (b : Byte) : (putByte b s).schedule = s.schedule := rfl

@[simp] theorem logRead_params (a : Nat) (v : Word) : (logRead a v s).params = s.params := rfl
@[simp] theorem logRead_operand (a : Nat) (v : Word) : (logRead a v s).operand = s.operand := rfl
@[simp] theorem logRead_result (a : Nat) (v : Word) : (logRead a v s).result = s.result := rfl
@[simp] theorem logRead_busy (a : Nat) (v : Word) : (logRead a v s).busy = s.busy := rfl
@[simp] theorem logRead_cmdLost (a : Nat) (v : Word) : (logRead a v s).cmdLost = s.cmdLost := rfl
@[simp] theorem logRead_code (a : Nat) (v : Word) : (logRead a v s).code = s.code := rfl
@[simp] theorem logRead_count (a : Nat) (v : Word) : (logRead a v s).count = s.count := rfl
@[simp] theorem logRead_err (a : Nat) (v : Word) : (logRead a v s).err = s.err := rfl
@[simp] theorem logRead_phase (a : Nat) (v : Word) : (logRead a v s).phase = s.phase := rfl
@[simp] theorem logRead_opk (a : Nat) (v : Word) : (logRead a v s).opk = s.opk := rfl
@[simp] theorem logRead_nw (a : Nat) (v : Word) : (logRead a v s).nw = s.nw := rfl
@[simp] theorem logRead_rem (a : Nat) (v : Word) : (logRead a v s).rem = s.rem := rfl
@[simp] theorem logRead_acc (a : Nat) (v : Word) : (logRead a v s).acc = s.acc := rfl
@[simp] theorem logRead_off (a : Nat) (v : Word) : (logRead a v s).off = s.off := rfl
@[simp] theorem logRead_cnt (a : Nat) (v : Word) : (logRead a v s).cnt = s.cnt := rfl
@[simp] theorem logRead_srcTaken (a : Nat) (v : Word) : (logRead a v s).srcTaken = s.srcTaken := rfl
@[simp] theorem logRead_sinkStream (a : Nat) (v : Word) : (logRead a v s).sinkStream = s.sinkStream := rfl
@[simp] theorem logRead_hostReads (a : Nat) (v : Word) : (logRead a v s).hostReads = s.hostReads ++ [(a, v)] := rfl
@[simp] theorem logRead_draws (a : Nat) (v : Word) : (logRead a v s).draws = s.draws := rfl
@[simp] theorem logRead_schedule (a : Nat) (v : Word) : (logRead a v s).schedule = s.schedule := rfl

@[simp] theorem finish_params (c : Code) : (finish c s).params = s.params := rfl
@[simp] theorem finish_operand (c : Code) : (finish c s).operand = s.operand := rfl
@[simp] theorem finish_result (c : Code) : (finish c s).result = s.result := rfl
@[simp] theorem finish_busy (c : Code) : (finish c s).busy = false := rfl
@[simp] theorem finish_cmdLost (c : Code) : (finish c s).cmdLost = s.cmdLost := rfl
@[simp] theorem finish_code (c : Code) : (finish c s).code = c := rfl
@[simp] theorem finish_count (c : Code) : (finish c s).count = s.count := rfl
@[simp] theorem finish_err (c : Code) : (finish c s).err = s.err := rfl
@[simp] theorem finish_phase (c : Code) : (finish c s).phase = .idle := rfl
@[simp] theorem finish_opk (c : Code) : (finish c s).opk = s.opk := rfl
@[simp] theorem finish_nw (c : Code) : (finish c s).nw = s.nw := rfl
@[simp] theorem finish_rem (c : Code) : (finish c s).rem = s.rem := rfl
@[simp] theorem finish_acc (c : Code) : (finish c s).acc = s.acc := rfl
@[simp] theorem finish_off (c : Code) : (finish c s).off = s.off := rfl
@[simp] theorem finish_cnt (c : Code) : (finish c s).cnt = s.cnt := rfl
@[simp] theorem finish_srcTaken (c : Code) : (finish c s).srcTaken = s.srcTaken := rfl
@[simp] theorem finish_sinkStream (c : Code) : (finish c s).sinkStream = s.sinkStream := rfl
@[simp] theorem finish_hostReads (c : Code) : (finish c s).hostReads = s.hostReads := rfl
@[simp] theorem finish_draws (c : Code) : (finish c s).draws = s.draws := rfl
@[simp] theorem finish_schedule (c : Code) : (finish c s).schedule = s.schedule := rfl

@[simp] theorem clearReport_params : (clearReport s).params = s.params := rfl
@[simp] theorem clearReport_operand : (clearReport s).operand = s.operand := rfl
@[simp] theorem clearReport_result : (clearReport s).result = s.result := rfl
@[simp] theorem clearReport_busy : (clearReport s).busy = s.busy := rfl
@[simp] theorem clearReport_cmdLost : (clearReport s).cmdLost = false := rfl
@[simp] theorem clearReport_code : (clearReport s).code = .none := rfl
@[simp] theorem clearReport_count : (clearReport s).count = 0 := rfl
@[simp] theorem clearReport_err : (clearReport s).err = none := rfl
@[simp] theorem clearReport_phase : (clearReport s).phase = s.phase := rfl
@[simp] theorem clearReport_opk : (clearReport s).opk = s.opk := rfl
@[simp] theorem clearReport_nw : (clearReport s).nw = s.nw := rfl
@[simp] theorem clearReport_rem : (clearReport s).rem = s.rem := rfl
@[simp] theorem clearReport_acc : (clearReport s).acc = s.acc := rfl
@[simp] theorem clearReport_off : (clearReport s).off = s.off := rfl
@[simp] theorem clearReport_cnt : (clearReport s).cnt = s.cnt := rfl
@[simp] theorem clearReport_srcTaken : (clearReport s).srcTaken = s.srcTaken := rfl
@[simp] theorem clearReport_sinkStream : (clearReport s).sinkStream = s.sinkStream := rfl
@[simp] theorem clearReport_hostReads : (clearReport s).hostReads = s.hostReads := rfl
@[simp] theorem clearReport_draws : (clearReport s).draws = s.draws := rfl
@[simp] theorem clearReport_schedule : (clearReport s).schedule = s.schedule := rfl

@[simp] theorem latchCommand_params (k : Op) (n : Bool) : (latchCommand k n s).params = s.params := rfl
@[simp] theorem latchCommand_operand (k : Op) (n : Bool) : (latchCommand k n s).operand = s.operand := rfl
@[simp] theorem latchCommand_result (k : Op) (n : Bool) : (latchCommand k n s).result = s.result := rfl
@[simp] theorem latchCommand_busy (k : Op) (n : Bool) : (latchCommand k n s).busy = true := rfl
@[simp] theorem latchCommand_cmdLost (k : Op) (n : Bool) : (latchCommand k n s).cmdLost = s.cmdLost := rfl
@[simp] theorem latchCommand_code (k : Op) (n : Bool) : (latchCommand k n s).code = s.code := rfl
@[simp] theorem latchCommand_count (k : Op) (n : Bool) : (latchCommand k n s).count = s.count := rfl
@[simp] theorem latchCommand_err (k : Op) (n : Bool) : (latchCommand k n s).err = s.err := rfl
@[simp] theorem latchCommand_phase (k : Op) (n : Bool) : (latchCommand k n s).phase = s.phase := rfl
@[simp] theorem latchCommand_opk (k : Op) (n : Bool) : (latchCommand k n s).opk = k := rfl
@[simp] theorem latchCommand_nw (k : Op) (n : Bool) : (latchCommand k n s).nw = n := rfl
@[simp] theorem latchCommand_rem (k : Op) (n : Bool) : (latchCommand k n s).rem = s.rem := rfl
@[simp] theorem latchCommand_acc (k : Op) (n : Bool) : (latchCommand k n s).acc = s.acc := rfl
@[simp] theorem latchCommand_off (k : Op) (n : Bool) : (latchCommand k n s).off = s.off := rfl
@[simp] theorem latchCommand_cnt (k : Op) (n : Bool) : (latchCommand k n s).cnt = 0 := rfl
@[simp] theorem latchCommand_srcTaken (k : Op) (n : Bool) : (latchCommand k n s).srcTaken = s.srcTaken := rfl
@[simp] theorem latchCommand_sinkStream (k : Op) (n : Bool) : (latchCommand k n s).sinkStream = s.sinkStream := rfl
@[simp] theorem latchCommand_hostReads (k : Op) (n : Bool) : (latchCommand k n s).hostReads = s.hostReads := rfl
@[simp] theorem latchCommand_draws (k : Op) (n : Bool) : (latchCommand k n s).draws = s.draws := rfl
@[simp] theorem latchCommand_schedule (k : Op) (n : Bool) : (latchCommand k n s).schedule = s.schedule := rfl

@[simp] theorem loseCommand_params : (loseCommand s).params = s.params := rfl
@[simp] theorem loseCommand_operand : (loseCommand s).operand = s.operand := rfl
@[simp] theorem loseCommand_result : (loseCommand s).result = s.result := rfl
@[simp] theorem loseCommand_busy : (loseCommand s).busy = s.busy := rfl
@[simp] theorem loseCommand_cmdLost : (loseCommand s).cmdLost = true := rfl
@[simp] theorem loseCommand_code : (loseCommand s).code = s.code := rfl
@[simp] theorem loseCommand_count : (loseCommand s).count = s.count := rfl
@[simp] theorem loseCommand_err : (loseCommand s).err = s.err := rfl
@[simp] theorem loseCommand_phase : (loseCommand s).phase = s.phase := rfl
@[simp] theorem loseCommand_opk : (loseCommand s).opk = s.opk := rfl
@[simp] theorem loseCommand_nw : (loseCommand s).nw = s.nw := rfl
@[simp] theorem loseCommand_rem : (loseCommand s).rem = s.rem := rfl
@[simp] theorem loseCommand_acc : (loseCommand s).acc = s.acc := rfl
@[simp] theorem loseCommand_off : (loseCommand s).off = s.off := rfl
@[simp] theorem loseCommand_cnt : (loseCommand s).cnt = s.cnt := rfl
@[simp] theorem loseCommand_srcTaken : (loseCommand s).srcTaken = s.srcTaken := rfl
@[simp] theorem loseCommand_sinkStream : (loseCommand s).sinkStream = s.sinkStream := rfl
@[simp] theorem loseCommand_hostReads : (loseCommand s).hostReads = s.hostReads := rfl
@[simp] theorem loseCommand_draws : (loseCommand s).draws = s.draws := rfl
@[simp] theorem loseCommand_schedule : (loseCommand s).schedule = s.schedule := rfl

@[simp] theorem resetBlock_params : (resetBlock s).params = s.params := rfl
@[simp] theorem resetBlock_operand : (resetBlock s).operand = 0 := rfl
@[simp] theorem resetBlock_result : (resetBlock s).result = 0 := rfl
@[simp] theorem resetBlock_busy : (resetBlock s).busy = false := rfl
@[simp] theorem resetBlock_cmdLost : (resetBlock s).cmdLost = false := rfl
@[simp] theorem resetBlock_code : (resetBlock s).code = .none := rfl
@[simp] theorem resetBlock_count : (resetBlock s).count = 0 := rfl
@[simp] theorem resetBlock_err : (resetBlock s).err = none := rfl
@[simp] theorem resetBlock_phase : (resetBlock s).phase = .idle := rfl
@[simp] theorem resetBlock_opk : (resetBlock s).opk = .len := rfl
@[simp] theorem resetBlock_nw : (resetBlock s).nw = false := rfl
@[simp] theorem resetBlock_rem : (resetBlock s).rem = 0 := rfl
@[simp] theorem resetBlock_acc : (resetBlock s).acc = 0 := rfl
@[simp] theorem resetBlock_off : (resetBlock s).off = 0 := rfl
@[simp] theorem resetBlock_cnt : (resetBlock s).cnt = 0 := rfl
@[simp] theorem resetBlock_srcTaken : (resetBlock s).srcTaken = s.srcTaken := rfl
@[simp] theorem resetBlock_sinkStream : (resetBlock s).sinkStream = s.sinkStream := rfl
@[simp] theorem resetBlock_hostReads : (resetBlock s).hostReads = s.hostReads := rfl
@[simp] theorem resetBlock_draws : (resetBlock s).draws = s.draws := rfl
@[simp] theorem resetBlock_schedule : (resetBlock s).schedule = s.schedule := rfl

@[simp] theorem finishCounted_params : (finishCounted s).params = s.params := rfl
@[simp] theorem finishCounted_operand : (finishCounted s).operand = s.operand := rfl
@[simp] theorem finishCounted_result : (finishCounted s).result = s.result := rfl
@[simp] theorem finishCounted_busy : (finishCounted s).busy = false := rfl
@[simp] theorem finishCounted_cmdLost : (finishCounted s).cmdLost = s.cmdLost := rfl
@[simp] theorem finishCounted_code : (finishCounted s).code = .ok := rfl
@[simp] theorem finishCounted_count : (finishCounted s).count = s.cnt := rfl
@[simp] theorem finishCounted_err : (finishCounted s).err = s.err := rfl
@[simp] theorem finishCounted_phase : (finishCounted s).phase = .idle := rfl
@[simp] theorem finishCounted_opk : (finishCounted s).opk = s.opk := rfl
@[simp] theorem finishCounted_nw : (finishCounted s).nw = s.nw := rfl
@[simp] theorem finishCounted_rem : (finishCounted s).rem = s.rem := rfl
@[simp] theorem finishCounted_acc : (finishCounted s).acc = s.acc := rfl
@[simp] theorem finishCounted_off : (finishCounted s).off = s.off := rfl
@[simp] theorem finishCounted_cnt : (finishCounted s).cnt = s.cnt := rfl
@[simp] theorem finishCounted_srcTaken : (finishCounted s).srcTaken = s.srcTaken := rfl
@[simp] theorem finishCounted_sinkStream : (finishCounted s).sinkStream = s.sinkStream := rfl
@[simp] theorem finishCounted_hostReads : (finishCounted s).hostReads = s.hostReads := rfl
@[simp] theorem finishCounted_draws : (finishCounted s).draws = s.draws := rfl
@[simp] theorem finishCounted_schedule : (finishCounted s).schedule = s.schedule := rfl

end Sys2Proof.Machine
end

