-- ==== Sys2Proof/Laws/Ops.lean ====
section
/-! SUPPORT. Once for each shared operation, what it can do: exceptions, accepting a command, discarding
one, the illegal command. -/

namespace Sys2Proof.Machine

variable (s : State)

/-- Every exception ends the command with its code, in IDLE (R105). -/
@[simp] theorem takeException_code (x : Exception) : (takeException x s).code = x.code := rfl
@[simp] theorem takeException_busy (x : Exception) : (takeException x s).busy = false := rfl
@[simp] theorem takeException_phase (x : Exception) : (takeException x s).phase = .idle := rfl

/-- What an exception may change, and nothing else (R102, R105). -/
theorem takeException_spec (x : Exception) : ∃ e n d,
    takeException x s =
      { s with err := e, count := n, draws := d, code := x.code, busy := false, phase := .idle } ∧
    (e = s.err ∨ ∃ err, e = some err ∧ (x = .srcErr err ∨ x = .sinkErr err)) := by
  cases x
  case srcErr e => exact ⟨_, _, _, rfl, .inr ⟨e, rfl, .inl rfl⟩⟩
  case sinkErr e => exact ⟨_, _, _, rfl, .inr ⟨e, rfl, .inr rfl⟩⟩
  case overflow => exact ⟨_, _, _, rfl, .inl rfl⟩
  case illegalCmd => exact ⟨_, _, _, rfl, .inl rfl⟩
  case narrowOvf => exact ⟨_, _, _, rfl, .inl rfl⟩

@[simp] theorem takeException_params (x : Exception) : (takeException x s).params = s.params := by
  cases x <;> rfl
@[simp] theorem takeException_operand (x : Exception) : (takeException x s).operand = s.operand := by
  cases x <;> rfl
@[simp] theorem takeException_result (x : Exception) : (takeException x s).result = s.result := by
  cases x <;> rfl
@[simp] theorem takeException_cmdLost (x : Exception) : (takeException x s).cmdLost = s.cmdLost := by
  cases x <;> rfl
@[simp] theorem takeException_opk (x : Exception) : (takeException x s).opk = s.opk := by
  cases x <;> rfl
@[simp] theorem takeException_nw (x : Exception) : (takeException x s).nw = s.nw := by
  cases x <;> rfl
@[simp] theorem takeException_rem (x : Exception) : (takeException x s).rem = s.rem := by
  cases x <;> rfl
@[simp] theorem takeException_acc (x : Exception) : (takeException x s).acc = s.acc := by
  cases x <;> rfl
@[simp] theorem takeException_off (x : Exception) : (takeException x s).off = s.off := by
  cases x <;> rfl
@[simp] theorem takeException_cnt (x : Exception) : (takeException x s).cnt = s.cnt := by
  cases x <;> rfl
@[simp] theorem takeException_srcTaken (x : Exception) :
    (takeException x s).srcTaken = s.srcTaken := by
  cases x <;> rfl
@[simp] theorem takeException_sinkStream (x : Exception) :
    (takeException x s).sinkStream = s.sinkStream := by
  cases x <;> rfl
@[simp] theorem takeException_hostReads (x : Exception) :
    (takeException x s).hostReads = s.hostReads := by
  cases x <;> rfl
@[simp] theorem takeException_schedule (x : Exception) :
    (takeException x s).schedule = s.schedule := by
  cases x <;> rfl

/-- An accepted command, whatever its kind (R60). -/
theorem accept_spec (k : Op) (n : Bool) : ∃ r p,
    accept k n s =
      { s with cmdLost := false, err := none, opk := k, nw := n, code := .none, count := 0, cnt := 0,
               busy := true, rem := r, phase := p } ∧
    ((k = .len ∧ p = .lenExec ∧ r = opval s.params.nativeWidth n s.operand) ∨
      (k = .enc ∧ p = .encEmit ∧ r = opval s.params.nativeWidth n s.operand) ∨
      ((k = .dec ∨ k = .trydec) ∧ p = .decFirst ∧ r = s.rem)) := by
  cases k
  case len => exact ⟨_, _, rfl, .inl ⟨rfl, rfl, rfl⟩⟩
  case enc => exact ⟨_, _, rfl, .inr (.inl ⟨rfl, rfl, rfl⟩)⟩
  case dec => exact ⟨_, _, rfl, .inr (.inr ⟨.inl rfl, rfl, rfl⟩)⟩
  case trydec => exact ⟨_, _, rfl, .inr (.inr ⟨.inr rfl, rfl, rfl⟩)⟩

theorem issue_idle {s : State} (h : s.phase = .idle) (k : Op) (n : Bool) :
    issue k n s = accept k n s := if_pos h

theorem issue_busy {s : State} (h : s.phase ≠ .idle) (k : Op) (n : Bool) :
    issue k n s = loseCommand s := if_neg h

theorem issueIllegal_idle {s : State} (h : s.phase = .idle) :
    issueIllegal s = takeException .illegalCmd (clearReport s) := if_pos h

theorem issueIllegal_busy {s : State} (h : s.phase ≠ .idle) : issueIllegal s = loseCommand s := if_neg h

end Sys2Proof.Machine
end

