-- ==== Sys2Proof/Laws/Phases.lean ====
section
/-! SUPPORT. Once for each phase of a command, every next state it can give: delivery, the decode phases,
the emit phase, and the command words. -/

namespace Sys2Proof.Machine

variable (s : State)

/-- The three branches of a delivery (R83), each under its condition. -/
theorem deliver_fits {s : State} {v : Word} (h : fitsNative s.params.nativeWidth s.nw v = true) :
    deliver v s = finishCounted (setResult v s) := if_pos h

theorem deliver_rejects {s : State} {v : Word} (h : ¬ fitsNative s.params.nativeWidth s.nw v = true)
    (hr : s.params.narrowReject = true) : deliver v s = takeException .narrowOvf s := by
  rw [deliver, if_neg h, if_pos hr]

theorem deliver_truncates {s : State} {v : Word}
    (h : ¬ fitsNative s.params.nativeWidth s.nw v = true) (hr : ¬ s.params.narrowReject = true) :
    deliver v s = finishCounted (setResult (nativeTrunc s.params.nativeWidth v) s) := by
  rw [deliver, if_neg h, if_neg hr]

/-- When each agent's move is enabled (R41, R45, R73). -/
theorem lenMove_enabled {s : State} (h : s.phase = .lenExec) : lenMove s = .next (lenStep s) := if_pos h

theorem lenMove_disabled {s : State} (h : s.phase ≠ .lenExec) :
    lenMove s = .fault (.notEnabled .datapath) := if_neg h

theorem sinkMove_enabled {s : State} (h : s.phase = .encEmit) (a : SinkAnswer) :
    sinkMove a s = .next (encEmit a s) := if_pos h

theorem sinkMove_disabled {s : State} (h : s.phase ≠ .encEmit) (a : SinkAnswer) :
    sinkMove a s = .fault (.notEnabled .sink) := if_neg h

theorem sourceMove_first {s : State} (h : s.phase = .decFirst) (a : SrcAnswer) :
    sourceMove a s = .next (decFirst a s) := by simp only [sourceMove, h]

theorem sourceMove_mid {s : State} (h : s.phase = .decMid) (a : SrcAnswer) :
    sourceMove a s = .next (decMid a s) := by simp only [sourceMove, h]

theorem sourceMove_last {s : State} (h : s.phase = .decLast) (a : SrcAnswer) :
    sourceMove a s = .next (decLast a s) := by simp only [sourceMove, h]

theorem sourceMove_disabled {s : State} (h1 : s.phase ≠ .decFirst) (h2 : s.phase ≠ .decMid)
    (h3 : s.phase ≠ .decLast) (a : SrcAnswer) : sourceMove a s = .fault (.notEnabled .source) := by
  cases hp : s.phase <;> simp_all [sourceMove]

/-- A delivery ends the command with OK or NARROW_OVF (R83); these are all the registers it writes. -/
theorem deliver_spec (v : Word) : ∃ r n d c,
    deliver v s = { s with result := r, count := n, draws := d, code := c, busy := false, phase := .idle } ∧
    ((c = .ok ∧ n = s.cnt) ∨ (c = .narrowOvf ∧ r = s.result)) := by
  unfold deliver
  split
  · exact ⟨_, _, _, _, rfl, .inl ⟨rfl, rfl⟩⟩
  · split
    · exact ⟨_, _, _, _, rfl, .inr ⟨rfl, rfl⟩⟩
    · exact ⟨_, _, _, _, rfl, .inl ⟨rfl, rfl⟩⟩

/-- The first answer of a decode (R76, R77, R78). -/
theorem decFirst_cases (a : SrcAnswer) :
    (∃ b, a = .byte b ∧ terminal b = true ∧ decFirst a s = deliver (b.setWidth 64) (takeByte b s)) ∨
    (∃ b, a = .byte b ∧ terminal b = false ∧
      decFirst a s = { s with srcTaken := s.srcTaken ++ [b], cnt := s.cnt + 1, off := 7,
                              acc := (payload b).setWidth 64, phase := .decMid }) ∨
    (a = .empty ∧ requestKind s = .upTo ∧
      decFirst a s = { s with count := 0, code := .absent, busy := false, phase := .idle }) ∨
    (∃ e, (a = .err e ∨ (a = .empty ∧ requestKind s = .exact ∧ e = .unexpectedEnd)) ∧
      decFirst a s = takeException (.srcErr e) s) := by
  cases a with
  | byte b =>
    have hr : srcRead (requestKind s) (.byte b) = .byte b := by cases requestKind s <;> rfl
    cases hb : terminal b with
    | true => exact .inl ⟨b, rfl, hb, by simp [decFirst, hr, decFirstByte, hb]⟩
    | false =>
      refine .inr (.inl ⟨b, rfl, hb, ?_⟩)
      simp only [decFirst, hr, decFirstByte, hb]
      rfl
  | empty =>
    cases hk : requestKind s with
    | upTo => exact .inr (.inr (.inl ⟨rfl, rfl, by simp only [decFirst, hk]; rfl⟩))
    | exact =>
      exact .inr (.inr (.inr ⟨_, .inr ⟨rfl, rfl, rfl⟩, by simp only [decFirst, hk]; rfl⟩))
  | err e =>
    have hr : srcRead (requestKind s) (.err e) = .err e := by cases requestKind s <;> rfl
    exact .inr (.inr (.inr ⟨e, .inl rfl, by simp only [decFirst, hr]⟩))

/-- An interior answer (R79, R80). -/
theorem decMid_cases (a : SrcAnswer) :
    (∃ c, a = .byte c ∧ terminal c = true ∧
      decMid a s = deliver (addGroup c s) (setAcc (addGroup c s) (takeByte c s))) ∨
    (∃ c, a = .byte c ∧ terminal c = false ∧
      decMid a s = { s with srcTaken := s.srcTaken ++ [c], cnt := s.cnt + 1, acc := addGroup c s,
                            off := s.off + 7,
                            phase := if s.off + 7 = 63 then .decLast else s.phase }) ∨
    (∃ e, exactRead a = .error e ∧ decMid a s = takeException (.srcErr e) s) := by
  cases a with
  | byte c =>
    cases hc : terminal c with
    | true => exact .inl ⟨c, rfl, hc, by simp [decMid, exactRead, decMidByte, hc]⟩
    | false =>
      refine .inr (.inl ⟨c, rfl, hc, ?_⟩)
      have hd : decMid (.byte c) s = advanceOffset (setAcc (addGroup c s) (takeByte c s)) := by
        simp [decMid, exactRead, decMidByte, hc]
      rw [hd]
      change (if s.off + 7 = 63 then _ else _) = _
      by_cases h : s.off + 7 = 63
      · simp only [if_pos h]; rfl
      · simp only [if_neg h]; rfl
  | empty => exact .inr (.inr ⟨_, rfl, rfl⟩)
  | err e => exact .inr (.inr ⟨e, rfl, rfl⟩)

/-- The tenth answer ends the decode in every case (R81, R82). The delivered word is named, so that no
proof need compute with its bit 63. -/
theorem decLast_cases (a : SrcAnswer) :
    (∃ v, v = addTopBit s ∧ a = .byte 0x01 ∧
      decLast a s = deliver v (setAcc v (takeByte 0x01 s))) ∨
    (∃ d, a = .byte d ∧ d ≠ 0x01 ∧ decLast a s = takeException .overflow (takeByte d s)) ∨
    (∃ e, exactRead a = .error e ∧ decLast a s = takeException (.srcErr e) s) := by
  cases a with
  | byte d =>
    by_cases hd : d = 0x01
    · subst hd; exact .inl ⟨_, rfl, rfl, by simp [decLast, exactRead, decLastByte]⟩
    · exact .inr (.inl ⟨d, rfl, hd, by simp only [decLast, exactRead, decLastByte, if_neg hd]⟩)
  | empty => exact .inr (.inr ⟨_, rfl, rfl⟩)
  | err e => exact .inr (.inr ⟨e, rfl, rfl⟩)

/-- The Sink's answer (R93, R94). -/
theorem encEmit_cases (a : SinkAnswer) :
    (a = .ok ∧ afterGroup s.rem = 0 ∧
      encEmit a s = { s with sinkStream := s.sinkStream ++ [offeredByte s.rem], cnt := s.cnt + 1,
                             rem := afterGroup s.rem, count := s.cnt + 1, code := .ok, busy := false,
                             phase := .idle }) ∨
    (a = .ok ∧ afterGroup s.rem ≠ 0 ∧
      encEmit a s = { s with sinkStream := s.sinkStream ++ [offeredByte s.rem], cnt := s.cnt + 1,
                             rem := afterGroup s.rem }) ∨
    (∃ e, a = .err e ∧ encEmit a s = takeException (.sinkErr e) s) := by
  cases a with
  | ok =>
    by_cases h : afterGroup s.rem = 0
    · exact .inl ⟨rfl, h, by simp only [encEmit, if_pos h]; rfl⟩
    · exact .inr (.inl ⟨rfl, h, by simp only [encEmit, if_neg h]; rfl⟩)
  | err e => exact .inr (.inr ⟨e, rfl, rfl⟩)

/-- The kind OPK that a command's word selects (R60). -/
def kindOf : Instr → Op
  | .len64 => .len
  | .lenN => .len
  | .dec64 => .dec
  | .decN => .dec
  | .trydec64 => .trydec
  | .trydecN => .trydec
  | .enc64 => .enc
  | .encN => .enc

/-- The width select NW that a command's word selects (R60). -/
def nativeOf : Instr → Bool
  | .len64 => false
  | .lenN => true
  | .dec64 => false
  | .decN => true
  | .trydec64 => false
  | .trydecN => true
  | .enc64 => false
  | .encN => true

/-- Every command's meaning is the issue of its kind and width (R60, R61). -/
theorem exec_eq_issue (i : Instr) : exec i s = .next (issue (kindOf i) (nativeOf i) s) := by
  cases i <;> rfl

/-- What no answer of the Source or the Sink changes: the Host's side of the state, the parameters and
the moves to come. -/
structure HostSideKept (s t : State) : Prop where
  params : t.params = s.params
  operand : t.operand = s.operand
  cmdLost : t.cmdLost = s.cmdLost
  hostReads : t.hostReads = s.hostReads
  schedule : t.schedule = s.schedule

theorem HostSideKept.trans {a b c : State} (h : HostSideKept a b) (k : HostSideKept b c) :
    HostSideKept a c :=
  ⟨k.params.trans h.params, k.operand.trans h.operand, k.cmdLost.trans h.cmdLost,
    k.hostReads.trans h.hostReads, k.schedule.trans h.schedule⟩

theorem hostSideKept_takeException (x : Exception) : HostSideKept s (takeException x s) := by
  constructor <;> simp

theorem hostSideKept_deliver (v : Word) : HostSideKept s (deliver v s) := by
  obtain ⟨_, _, _, _, e, -⟩ := deliver_spec s v
  rw [e]
  exact ⟨rfl, rfl, rfl, rfl, rfl⟩

theorem hostSideKept_takeByte (b : Byte) : HostSideKept s (takeByte b s) := ⟨rfl, rfl, rfl, rfl, rfl⟩

theorem hostSideKept_setAcc (v : Word) : HostSideKept s (setAcc v s) := ⟨rfl, rfl, rfl, rfl, rfl⟩

theorem hostSideKept_decFirst (a : SrcAnswer) : HostSideKept s (decFirst a s) := by
  rcases decFirst_cases s a with ⟨b, -, -, e⟩ | ⟨b, -, -, e⟩ | ⟨-, -, e⟩ | ⟨x, -, e⟩ <;> rw [e]
  · exact (hostSideKept_takeByte s b).trans (hostSideKept_deliver _ _)
  · exact ⟨rfl, rfl, rfl, rfl, rfl⟩
  · exact ⟨rfl, rfl, rfl, rfl, rfl⟩
  · exact hostSideKept_takeException _ _

theorem hostSideKept_decMid (a : SrcAnswer) : HostSideKept s (decMid a s) := by
  rcases decMid_cases s a with ⟨b, -, -, e⟩ | ⟨b, -, -, e⟩ | ⟨x, -, e⟩ <;> rw [e]
  · exact ((hostSideKept_takeByte s b).trans (hostSideKept_setAcc _ _)).trans (hostSideKept_deliver _ _)
  · exact ⟨rfl, rfl, rfl, rfl, rfl⟩
  · exact hostSideKept_takeException _ _

theorem hostSideKept_decLast (a : SrcAnswer) : HostSideKept s (decLast a s) := by
  rcases decLast_cases s a with ⟨v, -, -, e⟩ | ⟨d, -, -, e⟩ | ⟨x, -, e⟩ <;> rw [e]
  · exact ((hostSideKept_takeByte s _).trans (hostSideKept_setAcc _ _)).trans (hostSideKept_deliver _ _)
  · exact (hostSideKept_takeByte s d).trans (hostSideKept_takeException _ _)
  · exact hostSideKept_takeException _ _

theorem hostSideKept_encEmit (a : SinkAnswer) : HostSideKept s (encEmit a s) := by
  rcases encEmit_cases s a with ⟨-, -, e⟩ | ⟨-, -, e⟩ | ⟨x, -, e⟩ <;> rw [e]
  · exact ⟨rfl, rfl, rfl, rfl, rfl⟩
  · exact ⟨rfl, rfl, rfl, rfl, rfl⟩
  · exact hostSideKept_takeException _ _

end Sys2Proof.Machine
end

