-- ==== Sys2Proof/Laws/HostPort.lean ====
section
/-! SUPPORT. Which host accesses run and what they do (R38 to R40), once, for the proofs about steps. -/

namespace Sys2Proof

@[simp] theorem wellFormed_read_iff (width a : Nat) :
    (HostAccess.read width a).wellFormed = true ↔ width = 64 ∧ a % 8 = 0 := by
  simp [HostAccess.wellFormed, HostAccess.whole, HostAccess.aligned]

@[simp] theorem wellFormed_write_iff (width a : Nat) (w : Word) :
    (HostAccess.write width a w).wellFormed = true ↔ width = 64 ∧ a % 8 = 0 := by
  simp [HostAccess.wellFormed, HostAccess.whole, HostAccess.aligned]

end Sys2Proof

namespace Sys2Proof.Machine

variable (s : State)

theorem hostMove_read {a : Nat} (h : a % 8 = 0) :
    hostMove (.read 64 a) s = .next (hostRead a s) :=
  if_pos ((wellFormed_read_iff 64 a).2 ⟨rfl, h⟩)

theorem hostMove_write {a : Nat} (h : a % 8 = 0) (w : Word) :
    hostMove (.write 64 a w) s = hostWrite a w s :=
  if_pos ((wellFormed_write_iff 64 a w).2 ⟨rfl, h⟩)

theorem hostMove_refused {a : HostAccess} (h : ¬ a.wellFormed = true) :
    hostMove a s = .refused .hostAccess :=
  if_neg h

theorem writeCmd_legal {w : Word} {i : Instr} (h : decode w = some i) : writeCmd w s = exec i s := by
  simp only [writeCmd, h]

theorem writeCmd_illegal {w : Word} (h : decode w = none) :
    writeCmd w s = .next (issueIllegal s) := by
  simp only [writeCmd, h]

/-- A CMD write always answers a next state (R58, R70): the command's issue, or the illegal word's. -/
theorem writeCmd_cases (w : Word) :
    (∃ i, decode w = some i ∧ writeCmd w s = .next (issue (kindOf i) (nativeOf i) s)) ∨
    (decode w = none ∧ writeCmd w s = .next (issueIllegal s)) := by
  cases h : decode w with
  | some i => exact .inl ⟨i, rfl, by rw [writeCmd_legal s h, exec_eq_issue]⟩
  | none => exact .inr ⟨rfl, writeCmd_illegal s h⟩

end Sys2Proof.Machine
end

