-- ==== Sys2Proof/Laws/PerInstr.lean ====
section
/-! SUPPORT. Properties of every command as syntax, one lemma for each constructor. -/

/-- A command's word has legal fields: a legal OP, and RSVD zero (R56, R58). -/
def Sys2Proof.Laws.LegalWord.Statement (i : Sys2Proof.Instr) : Prop :=
  (Sys2Proof.commandFields (Sys2Proof.encode i)).wellFormed = true

namespace Sys2Proof.Laws.LegalWord

theorem len64 : Statement .len64 := by unfold Statement; decide
theorem lenN : Statement .lenN := by unfold Statement; decide
theorem dec64 : Statement .dec64 := by unfold Statement; decide
theorem decN : Statement .decN := by unfold Statement; decide
theorem trydec64 : Statement .trydec64 := by unfold Statement; decide
theorem trydecN : Statement .trydecN := by unfold Statement; decide
theorem enc64 : Statement .enc64 := by unfold Statement; decide
theorem encN : Statement .encN := by unfold Statement; decide

end Sys2Proof.Laws.LegalWord
end

