-- ==== Sys2Proof/Laws/Step.lean ====
section
/-! SUPPORT. Once for the whole machine, what a step can do: every proof about all steps cites
`step_cases` and `move_cases` instead of unfolding `step`. -/

namespace Sys2Proof.Machine

/-- A step makes the next scheduled move, or goes on alone where there is none. -/
theorem step_cases {s t : State} (h : step s = .next t) :
    (s.schedule = [] ∧ t = unscheduled s) ∨
    ∃ m ms, s.schedule = m :: ms ∧ move m (setSchedule ms s) = .next t := by
  unfold step at h
  split at h
  next he => exact .inl ⟨he, by cases h; rfl⟩
  next m ms he => exact .inr ⟨m, ms, he, h⟩

theorem step_of_schedule {s : State} {m : Move} {ms : List Move} (h : s.schedule = m :: ms) :
    step s = move m (setSchedule ms s) := by
  simp only [step, h]

theorem step_of_unscheduled {s : State} (h : s.schedule = []) : step s = .next (unscheduled s) := by
  simp only [step, h]

/-- Every move that is made, with its state after it. -/
theorem move_cases {m : Move} {s t : State} (h : move m s = .next t) :
    (∃ a, m = .host (.read 64 a) ∧ a % 8 = 0 ∧ t = hostRead a s) ∨
    (∃ w i, m = .host (.write 64 0x00 w) ∧ decode w = some i ∧
      t = issue (kindOf i) (nativeOf i) s) ∨
    (∃ w, m = .host (.write 64 0x00 w) ∧ decode w = none ∧ t = issueIllegal s) ∨
    (∃ w, m = .host (.write 64 0x08 w) ∧ t = setOperand w s) ∨
    (∃ a w, m = .host (.write 64 a w) ∧ a % 8 = 0 ∧ a ≠ 0x00 ∧ a ≠ 0x08 ∧ t = s) ∨
    (m = .datapath ∧ s.phase = .lenExec ∧ t = lenStep s) ∨
    (∃ a, m = .source a ∧ s.phase = .decFirst ∧ t = decFirst a s) ∨
    (∃ a, m = .source a ∧ s.phase = .decMid ∧ t = decMid a s) ∨
    (∃ a, m = .source a ∧ s.phase = .decLast ∧ t = decLast a s) ∨
    (∃ a, m = .sink a ∧ s.phase = .encEmit ∧ t = encEmit a s) ∨
    (m = .reset ∧ t = resetBlock s) := by
  cases m with
  | host acc =>
    change hostMove acc s = .next t at h
    by_cases hw : acc.wellFormed = true
    case neg => rw [hostMove_refused s hw] at h; cases h
    cases acc with
    | read width a =>
      obtain ⟨rfl, ha⟩ := (wellFormed_read_iff width a).1 hw
      rw [hostMove_read s ha] at h
      cases h
      exact .inl ⟨a, rfl, ha, rfl⟩
    | write width a w =>
      obtain ⟨rfl, ha⟩ := (wellFormed_write_iff width a w).1 hw
      rw [hostMove_write s ha] at h
      unfold hostWrite at h
      split at h
      next h0 =>
        subst h0
        rcases writeCmd_cases s w with ⟨i, hi, hc⟩ | ⟨hn, hc⟩ <;> rw [hc] at h <;> cases h
        · exact .inr (.inl ⟨w, i, rfl, hi, rfl⟩)
        · exact .inr (.inr (.inl ⟨w, rfl, hn, rfl⟩))
      next h0 =>
        split at h
        next h8 =>
          subst h8
          cases h
          exact .inr (.inr (.inr (.inl ⟨w, rfl, rfl⟩)))
        next h8 =>
          cases h
          exact .inr (.inr (.inr (.inr (.inl ⟨a, w, rfl, ha, h0, h8, rfl⟩))))
  | datapath =>
    simp only [move, lenMove] at h
    split at h
    next hp =>
      cases h
      exact .inr (.inr (.inr (.inr (.inr (.inl ⟨rfl, hp, rfl⟩)))))
    next => cases h
  | source a =>
    simp only [move, sourceMove] at h
    cases hp : s.phase <;> rw [hp] at h <;> cases h
    · exact .inr (.inr (.inr (.inr (.inr (.inr (.inl ⟨a, rfl, rfl, rfl⟩))))))
    · exact .inr (.inr (.inr (.inr (.inr (.inr (.inr (.inl ⟨a, rfl, rfl, rfl⟩)))))))
    · exact .inr (.inr (.inr (.inr (.inr (.inr (.inr (.inr (.inl ⟨a, rfl, rfl, rfl⟩))))))))
  | sink a =>
    simp only [move, sinkMove] at h
    split at h
    next hp =>
      cases h
      exact .inr (.inr (.inr (.inr (.inr (.inr (.inr (.inr (.inr (.inl ⟨a, rfl, hp, rfl⟩)))))))))
    next => cases h
  | reset =>
    cases h
    exact .inr (.inr (.inr (.inr (.inr (.inr (.inr (.inr (.inr (.inr ⟨rfl, rfl⟩)))))))))

theorem deliver_setSchedule (v : Word) (ms : List Move) (s : State) :
    deliver v (setSchedule ms s) = setSchedule ms (deliver v s) := by
  by_cases hf : fitsNative s.params.nativeWidth s.nw v = true
  · rw [deliver_fits hf, deliver_fits (by exact hf)]; rfl
  · by_cases hr : s.params.narrowReject = true
    · rw [deliver_rejects hf hr, deliver_rejects (by exact hf) (by exact hr)]; rfl
    · rw [deliver_truncates hf hr, deliver_truncates (by exact hf) (by exact hr)]; rfl

/-- No move reads or writes the moves that come after it. -/
theorem move_setSchedule (m : Move) (ms : List Move) (s : State) :
    move m (setSchedule ms s) = onNext (setSchedule ms) (move m s) := by
  have hissue : ∀ k n, issue k n (setSchedule ms s) = setSchedule ms (issue k n s) := by
    intro k n
    by_cases hp : s.phase = .idle
    · rw [issue_idle hp, issue_idle (by exact hp)]; cases k <;> rfl
    · rw [issue_busy hp, issue_busy (by exact hp)]; rfl
  cases m with
  | host acc =>
    change hostMove acc _ = onNext _ (hostMove acc _)
    by_cases hw : acc.wellFormed = true
    case neg => rw [hostMove_refused _ hw, hostMove_refused _ hw]; rfl
    cases acc with
    | read width a =>
      obtain ⟨rfl, ha⟩ := (wellFormed_read_iff width a).1 hw
      rw [hostMove_read _ ha, hostMove_read _ ha]; rfl
    | write width a w =>
      obtain ⟨rfl, ha⟩ := (wellFormed_write_iff width a w).1 hw
      rw [hostMove_write _ ha, hostMove_write _ ha]
      unfold hostWrite
      by_cases h0 : a = 0x00
      · simp only [if_pos h0]
        cases hd : decode w with
        | some i => rw [writeCmd_legal _ hd, writeCmd_legal _ hd, exec_eq_issue, exec_eq_issue, hissue]; rfl
        | none =>
          rw [writeCmd_illegal _ hd, writeCmd_illegal _ hd]
          by_cases hp : s.phase = .idle
          · rw [issueIllegal_idle hp, issueIllegal_idle (by exact hp)]; rfl
          · rw [issueIllegal_busy hp, issueIllegal_busy (by exact hp)]; rfl
      · simp only [if_neg h0]
        by_cases h8 : a = 0x08
        · simp only [if_pos h8]; rfl
        · simp only [if_neg h8]; rfl
  | datapath =>
    change lenMove _ = onNext _ (lenMove s)
    by_cases hp : s.phase = .lenExec
    · rw [lenMove_enabled hp, lenMove_enabled (by exact hp)]; rfl
    · rw [lenMove_disabled hp, lenMove_disabled (by exact hp)]; rfl
  | source a =>
    have hfirst : decFirst a (setSchedule ms s) = setSchedule ms (decFirst a s) := by
      unfold decFirst
      rw [show requestKind (setSchedule ms s) = requestKind s from rfl]
      cases srcRead (requestKind s) a with
      | byte b =>
        simp only [decFirstByte]
        cases hb : terminal b
        · rfl
        · exact deliver_setSchedule _ ms (takeByte b s)
      | empty => rfl
      | err e => rfl
    have hmid : decMid a (setSchedule ms s) = setSchedule ms (decMid a s) := by
      unfold decMid
      cases exactRead a with
      | ok c =>
        simp only [decMidByte]
        cases hc : terminal c
        · by_cases h : s.off + 7 = 63
          · simp only [advanceOffset, setAcc_off, takeByte_off, setSchedule_off, h]; rfl
          · simp only [advanceOffset, setAcc_off, takeByte_off, setSchedule_off, h]; rfl
        · exact deliver_setSchedule _ ms (setAcc (addGroup c s) (takeByte c s))
      | error e => rfl
    have hlast : decLast a (setSchedule ms s) = setSchedule ms (decLast a s) := by
      unfold decLast
      cases exactRead a with
      | ok d =>
        simp only [decLastByte]
        by_cases hd : d = 0x01
        · simp only [if_pos hd]
          exact deliver_setSchedule _ ms (setAcc (addTopBit s) (takeByte d s))
        · simp only [if_neg hd]; rfl
      | error e => rfl
    cases hp : s.phase <;>
      simp only [move, sourceMove, setSchedule_phase, hp, hfirst, hmid, hlast] <;> rfl
  | sink a =>
    have henc : encEmit a (setSchedule ms s) = setSchedule ms (encEmit a s) := by
      cases a with
      | ok => by_cases h : afterGroup s.rem = 0 <;> simp only [encEmit, setSchedule_rem, h] <;> rfl
      | err e => rfl
    by_cases hp : s.phase = .encEmit
    · change sinkMove a _ = onNext _ (sinkMove a s)
      rw [sinkMove_enabled hp, sinkMove_enabled (by exact hp), henc]; rfl
    · change sinkMove a _ = onNext _ (sinkMove a s)
      rw [sinkMove_disabled hp, sinkMove_disabled (by exact hp)]; rfl
  | reset => rfl

/-- Carrying a next state on twice is carrying it on once. -/
@[simp] theorem onNext_onNext {α β γ φ ρ : Type} (g : β → γ) (f : α → β) (o : Host.Outcome α φ ρ) :
    onNext g (onNext f o) = onNext (fun s => g (f s)) o := by
  cases o <;> rfl

/-- The moves of a list, one after another. -/
def moveAll : List Move → State → Host.Outcome State Fault Refusal
  | [], s => .next s
  | m :: ms, s =>
    match move m s with
    | .next t => moveAll ms t
    | .fault r => .fault r
    | .refused r => .refused r

/-- A turn of an agent is its move on the block (R9). -/
theorem stepWith_eq_move (m : Move) (s : State) : stepWith m s = move m s := by
  unfold stepWith
  rw [step_of_schedule (m := m) (ms := s.schedule) rfl]
  rfl

/-- Running: one step, then the rest. -/
theorem run_succ {s t : State} (k : Nat) (h : step s = .next t) :
    Host.Core.run core (k + 1) s = Host.Core.run core k t := by
  simp only [Host.Core.run]
  rw [show core.step s = .next t from h]

theorem run_zero (s : State) : Host.Core.run core 0 s = .next s := rfl

/-- Running the scheduled moves is making them one after another; what is scheduled after them stays. -/
theorem run_schedule (ms rest : List Move) (s : State) :
    Host.Core.run core ms.length (setSchedule (ms ++ rest) s) =
      onNext (setSchedule rest) (moveAll ms s) := by
  induction ms generalizing s with
  | nil => rfl
  | cons m ms ih =>
    have hstep : step (setSchedule (m :: ms ++ rest) s) =
        onNext (setSchedule (ms ++ rest)) (move m s) := by
      rw [step_of_schedule (m := m) (ms := ms ++ rest) rfl, ← move_setSchedule]; rfl
    simp only [List.length_cons, moveAll]
    cases hm : move m s with
    | next t =>
      rw [hm] at hstep
      rw [run_succ _ hstep]
      exact ih t
    | fault r =>
      rw [hm] at hstep
      have h : core.step (setSchedule (m :: ms ++ rest) s) = .fault r := hstep
      simp only [Host.Core.run, h]; rfl
    | refused r =>
      rw [hm] at hstep
      have h : core.step (setSchedule (m :: ms ++ rest) s) = .refused r := hstep
      simp only [Host.Core.run, h]; rfl

end Sys2Proof.Machine
end

