-- ==== Sys2Proof/Laws/Varint.lean ====
section
/-! SUPPORT. The operators of the varint format and of the operand (R59, R63, R92) as arithmetic on
natural numbers. -/

namespace Sys2Proof.Machine

theorem terminal_iff (b : Byte) : terminal b = true ↔ b.toNat < 0x80 := by
  revert b; decide

theorem terminal_eq_false_iff (b : Byte) : terminal b = false ↔ 0x80 ≤ b.toNat := by
  revert b; decide

theorem toNat_payload (b : Byte) : (payload b).toNat = b.toNat % 128 := by
  revert b; decide

theorem toNat_afterGroup (v : Word) : (afterGroup v).toNat = v.toNat / 2 ^ 7 := by
  simp [afterGroup, BitVec.toNat_ushiftRight, Nat.shiftRight_eq_div_pow]

theorem afterGroup_eq_zero_iff (v : Word) : afterGroup v = 0 ↔ v.toNat < 2 ^ 7 := by
  rw [← BitVec.toNat_inj, toNat_afterGroup]
  simp

theorem toNat_lowGroup (v : Word) : (lowGroup v).toNat = v.toNat % 2 ^ 7 := by
  have h : v.toNat &&& 127 = v.toNat % 2 ^ 7 := Nat.and_two_pow_sub_one_eq_mod v.toNat 7
  have h7 : (0x7F : Word).toNat = 127 := rfl
  rw [lowGroup, BitVec.toNat_setWidth, BitVec.toNat_and, h7, h]
  omega

/-- The offered byte is the low group, with bit 7 set while bits remain (R92). -/
theorem toNat_offeredByte (v : Word) :
    (offeredByte v).toNat = if v.toNat < 2 ^ 7 then v.toNat else v.toNat % 2 ^ 7 + 0x80 := by
  have hor : ∀ b : Byte, b.toNat < 128 → (b ||| 0x80).toNat = b.toNat + 128 := by decide
  unfold offeredByte
  by_cases h : v.toNat < 2 ^ 7
  · rw [if_pos ((afterGroup_eq_zero_iff v).2 h), if_pos h, toNat_lowGroup, Nat.mod_eq_of_lt h]
  · rw [if_neg (fun h' => h ((afterGroup_eq_zero_iff v).1 h')), if_neg h,
      hor _ (by rw [toNat_lowGroup]; omega), toNat_lowGroup]

theorem toNat_nativeTrunc (w : Config.NativeWidth) (v : Word) :
    (nativeTrunc w v).toNat = v.toNat % 2 ^ w.bits := by
  cases w <;> simp [nativeTrunc, Config.NativeWidth.bits] <;> omega

theorem nativeTrunc_w64 (v : Word) : nativeTrunc .w64 v = v := by
  simp [nativeTrunc, Config.NativeWidth.bits]

theorem fitsNative_iff (w : Config.NativeWidth) (nw : Bool) (v : Word) :
    fitsNative w nw v = true ↔ nw = false ∨ w = .w64 ∨ v.toNat < 2 ^ w.bits := by
  cases w <;> cases nw <;> simp [fitsNative, Config.NativeWidth.bits]
  exact decide_eq_true_iff

/-- The highest set bit decides the leading zeros, so `n - leadingZeros n v` bits are needed (R71). -/
theorem leadingZeros_le (n : Nat) (v : Word) : leadingZeros n v ≤ n := by
  induction n with
  | zero => simp [leadingZeros]
  | succ n ih => unfold leadingZeros; split <;> omega

/-- The low `n` bits of `v` fit in `k` bits exactly when at most `k` of them are needed. -/
theorem bits_le_iff (n : Nat) (v : Word) (k : Nat) :
    n - leadingZeros n v ≤ k ↔ v.toNat % 2 ^ n < 2 ^ k := by
  induction n with
  | zero => simp [leadingZeros, Nat.mod_one]
  | succ n ih =>
    have hm : v.toNat % 2 ^ (n + 1) = v.toNat % 2 ^ n + 2 ^ n * (v.toNat / 2 ^ n % 2) := by
      rw [pow_succ, Nat.mod_mul]
    have hle := leadingZeros_le n v
    have hmod : v.toNat % 2 ^ n < 2 ^ n := Nat.mod_lt _ (by positivity)
    have hbit : v.getLsbD n = true ↔ v.toNat / 2 ^ n % 2 = 1 := by
      rw [BitVec.getLsbD, Nat.testBit_eq_decide_div_mod_eq]; simp
    unfold leadingZeros
    by_cases h : v.getLsbD n = true
    · rw [if_pos h, hm, hbit.1 h]
      constructor
      · intro hk
        have : 2 ^ (n + 1) ≤ 2 ^ k := Nat.pow_le_pow_right (by norm_num) (by omega)
        rw [pow_succ] at this
        omega
      · intro hk
        by_contra hlt
        have : 2 ^ k ≤ 2 ^ n := Nat.pow_le_pow_right (by norm_num) (by omega)
        omega
    · have h0 : v.toNat / 2 ^ n % 2 = 0 := by
        have : ¬ v.toNat / 2 ^ n % 2 = 1 := fun h' => h (hbit.2 h')
        omega
      rw [if_neg h, hm, h0]
      simp only [mul_zero, add_zero]
      rw [← ih]
      omega

/-- `len7 v` is at most `k` exactly when `v` fits in `k` groups of 7 bits (R71). -/
theorem len7_le_iff (v : Word) (k : Nat) (hk : 1 ≤ k) : len7 v ≤ k ↔ v.toNat < 2 ^ (7 * k) := by
  have h := bits_le_iff 64 v (7 * k)
  rw [Nat.mod_eq_of_lt v.isLt] at h
  rw [← h]
  unfold len7 clz64
  omega

theorem one_le_len7 (v : Word) : 1 ≤ len7 v := by
  unfold len7; omega

theorem len7_le_ten (v : Word) : len7 v ≤ 10 :=
  (len7_le_iff v 10 (by norm_num)).2 (lt_of_lt_of_le v.isLt (by norm_num))

/-- Dropping the low group of a value that has more takes one off its length (R93, R71). -/
theorem len7_afterGroup (v : Word) (h : afterGroup v ≠ 0) : len7 v = len7 (afterGroup v) + 1 := by
  have hv : ¬ v.toNat < 2 ^ 7 := fun h' => h ((afterGroup_eq_zero_iff v).2 h')
  have key : ∀ k, 1 ≤ k → (len7 v ≤ k + 1 ↔ len7 (afterGroup v) ≤ k) := by
    intro k hk
    rw [len7_le_iff v (k + 1) (by omega), len7_le_iff _ k hk, toNat_afterGroup,
      Nat.div_lt_iff_lt_mul (by norm_num), ← pow_add]
    ring_nf
  have h1 : ¬ len7 v ≤ 1 := fun h' => hv (by simpa using (len7_le_iff v 1 le_rfl).1 h')
  have ha := one_le_len7 (afterGroup v)
  have hb := (key (len7 (afterGroup v)) ha).2 le_rfl
  by_cases hc : len7 v ≤ len7 (afterGroup v)
  · have h2 : len7 (afterGroup v) ≤ len7 (afterGroup v) - 1 :=
      (key (len7 (afterGroup v) - 1) (by omega)).1 (by omega)
    omega
  · omega

theorem len7_of_afterGroup_eq_zero (v : Word) (h : afterGroup v = 0) : len7 v = 1 := by
  have h1 := (len7_le_iff v 1 le_rfl).2 (by simpa using (afterGroup_eq_zero_iff v).1 h)
  have h2 := one_le_len7 v
  omega

/-- The cut of `encUpTo` does not show once it is no shorter than the length (R95). -/
theorem encUpTo_eq (n : Nat) (v : Word) (h : len7 v ≤ n) : encUpTo n v = encUpTo (len7 v) v := by
  induction n generalizing v with
  | zero => have := one_le_len7 v; omega
  | succ n ih =>
    by_cases hz : afterGroup v = 0
    · rw [len7_of_afterGroup_eq_zero v hz]; simp [encUpTo, hz]
    · have hl := len7_afterGroup v hz
      rw [hl, encUpTo, encUpTo, if_neg hz, if_neg hz, ih _ (by omega)]

/-- The recursion of R95. -/
theorem enc_eq (v : Word) :
    enc v = if afterGroup v = 0 then [offeredByte v] else offeredByte v :: enc (afterGroup v) := by
  by_cases hz : afterGroup v = 0
  · simp [enc, encUpTo, hz]
  · have hl := len7_afterGroup v hz
    have hv := len7_le_ten v
    rw [if_neg hz, enc, encUpTo, if_neg hz, enc, encUpTo_eq 9 _ (by omega),
      encUpTo_eq 10 _ (by omega)]

end Sys2Proof.Machine
end

