-- ==== Sys2Proof/Tests/Slice0.lean ====
section
/-! SUPPORT. Tests: well-formedness, decoding and encoding of written-out words, at most two steps for each
command (expected values from 95_test_vectors.md and the worked rows of the rules), and for every
obligation with hypotheses a witness that meets them. -/

namespace Sys2Proof.Tests

open Sys2Proof.Machine Sys2Proof.Safety Sys2Proof.Statement

/-- What `f` shows of the next state of an outcome, if there is one. -/
def view {α : Type} (f : State → α) (o : Host.Outcome State Fault Refusal) : Option α :=
  match o with
  | .next s => some (f s)
  | .fault _ => none
  | .refused _ => none

/-- A block with W_N = 32 and no NARROW_REJECT, in IDLE, with the given OPERAND and moves. -/
def idleBlock (operand : Word) (ms : List Move) : State :=
  { State.reset with params := ⟨.w32, false⟩, operand := operand, schedule := ms }

/-- The block in a phase of a command of the given kind. -/
def busyBlock (p : Phase) (k : Op) (ms : List Move) : State :=
  { idleBlock 0x80 ms with phase := p, opk := k, busy := true }

/-- A write of a word to CMD. -/
def cmd (w : Word) : Move := .host (.write 64 0x00 w)

/-! ### Well-formedness: an ill-formed term for each check -/

theorem test_op_illegal : (CommandFields.mk 5 false 0).wellFormed = false := by decide
theorem test_op_zero_illegal : (CommandFields.mk 0 true 0).opLegal = false := by decide
theorem test_rsvd_illegal : (CommandFields.mk 1 false 1).wellFormed = false := by decide
theorem test_fields_legal : (CommandFields.mk 4 true 0).wellFormed = true := by decide
theorem test_narrow_access_ill_formed : (HostAccess.read 32 0x08).wellFormed = false := by decide
theorem test_misaligned_access_ill_formed : (HostAccess.write 64 0x0C 0).wellFormed = false := by decide
theorem test_unmapped_access_well_formed : (HostAccess.read 64 0x28).wellFormed = true := by decide

/-! ### Decoding and encoding: words written out from R56 and R57 (RSVD, N, OP) -/

theorem test_decode_len64 : decode 0b0001#64 = some .len64 := by decide
theorem test_decode_lenN : decode 0b1001#64 = some .lenN := by decide
theorem test_decode_dec64 : decode 0b0010#64 = some .dec64 := by decide
theorem test_decode_decN : decode 0b1010#64 = some .decN := by decide
theorem test_decode_trydec64 : decode 0b0011#64 = some .trydec64 := by decide
theorem test_decode_trydecN : decode 0b1011#64 = some .trydecN := by decide
theorem test_decode_enc64 : decode 0b0100#64 = some .enc64 := by decide
theorem test_decode_encN : decode 0b1100#64 = some .encN := by decide

/-- OP 000, 101, 110 and 111 are illegal under either N (R58). -/
theorem test_decode_reserved_op :
    decode 0x0 = none ∧ decode 0x5 = none ∧ decode 0x6 = none ∧ decode 0x7 = none ∧
      decode 0x8 = none ∧ decode 0xD = none ∧ decode 0xE = none ∧ decode 0xF = none := by decide

/-- A RSVD bit set, the lowest or the highest, makes a word illegal (R58). -/
theorem test_decode_reserved_bits :
    decode 0x11 = none ∧ decode 0x8000000000000002 = none ∧ decode 0xFFFFFFFFFFFFFFFC = none := by decide

theorem test_encode_words :
    encode .lenN = 0x9 ∧ encode .decN = 0xA ∧ encode .trydecN = 0xB ∧ encode .encN = 0xC := by decide

theorem test_table_word : decodeTableWord 64 0xB = some .trydecN := by decide
/-- Bits a short row does not have are 0; a word wider than a command word is none (log 17). -/
theorem test_table_word_widths :
    decodeTableWord 8 0x104 = some .enc64 ∧ decodeTableWord 72 (2 ^ 64 + 1) = none := by decide

/-! ### The commands, one step at a time -/

/-- DV-L23: with W_N = 32 an OPERAND of 0x180000000 is latched as 0x80000000. -/
theorem test_lenN_latches_low_bits :
    view (fun s => (s.rem, s.phase, s.code)) (exec .lenN (idleBlock 0x180000000 [])) =
      some (0x80000000, .lenExec, .none) := by decide
/-- ... and LEN.64 latches it whole. -/
theorem test_len64_latches_all :
    view State.rem (exec .len64 (idleBlock 0x180000000 [])) = some 0x180000000 := by decide
/-- DV-L23: the Datapath's step then gives 5, with STATUS 0x010. -/
theorem test_len_step :
    view (fun s => (s.result, statusWord s))
      (step { busyBlock .lenExec .len [.datapath] with rem := 0x80000000 }) = some (5, 0x010) := by decide

/-- W1 to W11: the length at 0, 0x7F, 0x80, 2^63 - 1, 2^63 and 2^64 - 1. -/
theorem test_len7_boundaries :
    [0x0, 0x7F, 0x80, 0x7FFFFFFFFFFFFFFF, 0x8000000000000000, 0xFFFFFFFFFFFFFFFF].map len7 =
      [1, 1, 2, 9, 10, 10] := by decide

theorem test_dec64_waits_for_first_byte :
    view (fun s => (s.phase, s.opk, s.nw, s.busy)) (exec .dec64 (idleBlock 0 [])) =
      some (.decFirst, .dec, false, true) := by decide
/-- W17: DEC on an empty source is SRC_ERR with unexpectedEnd. -/
theorem test_dec64_empty_source :
    view (fun s => (s.code, s.err, s.phase)) (step (busyBlock .decFirst .dec [.source .empty])) =
      some (.srcErr, some .unexpectedEnd, .idle) := by decide

theorem test_decN_latches_width :
    view (fun s => (s.opk, s.nw)) (exec .decN (idleBlock 0 [])) = some (.dec, true) := by decide
/-- DV-N4, last byte: 0x1FFFFFFFF truncated to 32 bits without NARROW_REJECT. -/
theorem test_decN_truncates :
    view (fun s => (s.code, s.result, s.count))
      (step { busyBlock .decMid .dec [.source (.byte 0x1F)] with
                nw := true, acc := 0xFFFFFFF, off := 28, cnt := 4 }) =
      some (.ok, 0xFFFFFFFF, 5) := by decide

theorem test_trydec64_latches_kind :
    view (fun s => (s.phase, s.opk, s.nw)) (exec .trydec64 (idleBlock 0 [])) =
      some (.decFirst, .trydec, false) := by decide
/-- W16: TRYDEC on an empty source is ABSENT, STATUS 0x020. -/
theorem test_trydec64_empty_source :
    view statusWord (step (busyBlock .decFirst .trydec [.source .empty])) = some 0x020 := by decide

theorem test_trydecN_latches_kind :
    view (fun s => (s.opk, s.nw)) (exec .trydecN (idleBlock 0 [])) = some (.trydec, true) := by decide
/-- DV-N13, last byte: 2^32 under NARROW_REJECT is NARROW_OVF, and RESULT stays. -/
theorem test_trydecN_rejects :
    view (fun s => (s.code, s.result))
      (step { busyBlock .decMid .trydec [.source (.byte 0x10)] with
                params := ⟨.w32, true⟩, nw := true, result := 7, off := 28, cnt := 4 }) =
      some (.narrowOvf, 7) := by decide

theorem test_enc64_latches_all :
    view (fun s => (s.rem, s.phase)) (exec .enc64 (idleBlock 0x100000005 [])) =
      some (0x100000005, .encEmit) := by decide
/-- DV-E4, first byte of 0x80. -/
theorem test_enc64_first_byte :
    view (fun s => (s.sinkStream, s.rem, s.phase))
      (step { busyBlock .encEmit .enc [.sink .ok] with rem := 0x80 }) =
      some ([0x80], 1, .encEmit) := by decide

/-- DV-E28: with W_N = 32, 0x100000005 is latched as 5. -/
theorem test_encN_latches_low_bits :
    view (fun s => (s.rem, s.nw)) (exec .encN (idleBlock 0x100000005 [])) = some (5, true) := by decide
/-- DV-E28: the only byte is 0x05, STATUS 0x110. -/
theorem test_encN_last_byte :
    view (fun s => (s.sinkStream, statusWord s))
      (step { busyBlock .encEmit .enc [.sink .ok] with rem := 5 }) = some ([0x05], 0x110) := by decide

/-- The trace of DV-D7 at its third byte. -/
theorem test_dec_third_byte :
    view (fun s => (s.acc, s.off, s.cnt, s.phase))
      (step { busyBlock .decMid .dec [.source (.byte 0xAC)] with acc := 0x3FB5, off := 14, cnt := 2 }) =
      some (0xB3FB5, 21, 3, .decMid) := by decide
/-- W20: the ninth byte leads to DEC_LAST with OFF = 63 and CNT = 9. -/
theorem test_dec_ninth_byte :
    view (fun s => (s.off, s.cnt, s.phase))
      (step { busyBlock .decMid .dec [.source (.byte 0x80)] with off := 56, cnt := 8 }) =
      some (63, 9, .decLast) := by decide
/-- W20: the tenth byte 0x01 adds 2^63; STATUS 0xA10. -/
theorem test_dec_tenth_byte :
    view (fun s => (s.result, statusWord s))
      (step { busyBlock .decLast .dec [.source (.byte 0x01)] with off := 63, cnt := 9 }) =
      some (0x8000000000000000, 0xA10) := by decide
/-- DV-D17: a tenth byte 0x00 is OVERFLOW. -/
theorem test_dec_tenth_byte_zero :
    view (fun s => (s.code, s.result, s.err))
      (step (busyBlock .decLast .dec [.source (.byte 0x00)])) = some (.overflow, 0, none) := by decide

/-- W12: enc of 0x4B3FB5. -/
theorem test_enc_bytes : enc 0x4B3FB5 = [0xB5, 0xFF, 0xAC, 0x02] := by decide
/-- 2^63 takes ten bytes, the tenth 0x01 (R98). -/
theorem test_enc_top_bit :
    enc 0x8000000000000000 = [0x80, 0x80, 0x80, 0x80, 0x80, 0x80, 0x80, 0x80, 0x80, 0x01] := by decide
/-- DV-D11: a non-minimal sequence is accepted. -/
theorem test_non_minimal_accepted : Accepted [0xFF, 0x00] ∧ varintValue [0xFF, 0x00] = 0x7F := by decide
/-- DV-D18: ten bytes and no eleventh, and OVERFLOW. -/
theorem test_overflow_sequence :
    outcome .exact ((List.replicate 9 0xFF ++ [0x81, 0x01]).map SrcAnswer.byte) =
      some (.overflow, [.byte 0x01]) := by decide

/-- The STATUS word of DV-E23's end, with CMD_LOST set too. -/
theorem test_status_word :
    statusWord { idleBlock 0 [] with count := 10, code := .ok, cmdLost := true } = 0xA12 := by decide

/-- A placed word runs as the very next step. -/
theorem test_with_fetch_word :
    view State.phase (step (State.reset.withFetchWord 64 0x4)) = some .encEmit := by decide

/-! ### Witnesses: for every obligation with hypotheses, states and operands that meet them -/

theorem witness_IllegalWordsAndTheirWrites :
    (idleBlock 0 [cmd 0x5]).schedule = .host (.write 64 0x00 0x5) :: [] ∧ decode 0x5 = none ∧
      (idleBlock 0 [cmd 0x5]).phase = .idle ∧ (busyBlock .decMid .dec [cmd 0x5]).phase ≠ .idle ∧
      (busyBlock .decMid .dec [cmd 0x5]).schedule = .host (.write 64 0x00 0x5) :: [] := by decide

theorem witness_StepRunsTheDecodedCommand :
    decode 0xA = some .decN ∧ (idleBlock 0 [cmd 0xA]).schedule = .host (.write 64 0x00 0xA) :: [] := by
  decide

theorem witness_UnscheduledBlockWaits :
    (busyBlock .decMid .dec []).schedule = [] ∧ (busyBlock .decMid .dec []).phase ≠ .lenExec ∧
      (busyBlock .lenExec .len []).schedule = [] ∧ (busyBlock .lenExec .len []).phase = .lenExec := by
  decide

theorem witness_AcceptStepOfEveryCommand : (idleBlock 0x4B3FB5 []).phase = .idle := by decide

theorem witness_BusyBlockDiscardsCommandWords :
    (busyBlock .encEmit .enc [cmd 0x1]).phase ≠ .idle ∧
      (busyBlock .encEmit .enc [cmd 0x1]).schedule = .host (.write 64 0x00 0x1) :: [] := by decide

theorem witness_IllegalWordInIdleCompletes :
    (idleBlock 0 [cmd 0x11]).phase = .idle ∧ decode 0x11 = none ∧
      (idleBlock 0 [cmd 0x11]).schedule = .host (.write 64 0x00 0x11) :: [] := by decide

/-- The last register, and the first offset after it. -/
theorem witness_HostReadReturnsTheRegister :
    0x20 % 8 = 0 ∧ (idleBlock 0 [.host (.read 64 0x20)]).schedule = .host (.read 64 0x20) :: [] ∧
      0x28 % 8 = 0 ∧ (idleBlock 0 [.host (.read 64 0x28)]).schedule = .host (.read 64 0x28) :: [] := by
  decide

theorem witness_HostWriteReachesOnlyCmdAndOperand :
    0x08 % 8 = 0 ∧ (idleBlock 0 [.host (.write 64 0x08 1)]).schedule = .host (.write 64 0x08 1) :: [] ∧
      0x10 % 8 = 0 ∧ (idleBlock 0 [.host (.write 64 0x10 1)]).schedule = .host (.write 64 0x10 1) :: [] := by
  decide

/-- A narrow access, a misaligned one, the last register and the first offset after it. -/
theorem witness_OnlyWholeAlignedAccessesRun :
    (idleBlock 0 [.host (.read 32 0x08)]).schedule = .host (.read 32 0x08) :: [] ∧ 32 ≠ 64 ∧
      (idleBlock 0 [.host (.write 64 0x0C 1)]).schedule = .host (.write 64 0x0C 1) :: [] ∧ 0x0C % 8 ≠ 0 ∧
      (idleBlock 0 [.host (.read 64 0x20)]).schedule = .host (.read 64 0x20) :: [] ∧ 0x20 % 8 = 0 ∧
      (idleBlock 0 [.host (.read 64 0x28)]).schedule = .host (.read 64 0x28) :: [] ∧ 0x28 % 8 = 0 := by
  decide

/-- Both ends of the ranges of R71, each under one clause only. -/
theorem witness_LengthFunctionByBitsAndRanges :
    len7 0x7F = 1 ∧ len7 0x80 = 2 ∧ len7 0x3FFF = 2 ∧ len7 0x100000000000000 = 9 ∧
      len7 0x7FFFFFFFFFFFFFFF = 9 ∧ len7 0x8000000000000000 = 10 := by decide

theorem witness_DatapathStepEvaluatesLength :
    (busyBlock .lenExec .len [.datapath]).schedule = .datapath :: [] ∧
      (busyBlock .lenExec .len [.datapath]).phase = .lenExec ∧
      (idleBlock 0 [.datapath]).schedule = .datapath :: [] ∧ (idleBlock 0 [.datapath]).phase ≠ .lenExec := by
  decide

theorem witness_LenCommandsCompleteWithTheLength :
    (idleBlock 0x80 []).phase = .idle ∧ 0x18 % 8 = 0 := by decide

theorem witness_SourceStepsExactlyWhileDecoding :
    (busyBlock .decFirst .trydec [.source .empty]).schedule = .source .empty :: [] ∧
      (busyBlock .decFirst .trydec [.source .empty]).phase = .decFirst ∧
      (busyBlock .decMid .dec [.source .empty]).phase = .decMid ∧
      (busyBlock .decLast .dec [.source .empty]).phase = .decLast ∧
      (busyBlock .encEmit .enc [.source .empty]).schedule = .source .empty :: [] ∧
      (busyBlock .encEmit .enc [.source .empty]).phase ≠ .decFirst ∧
      (busyBlock .encEmit .enc [.source .empty]).phase ≠ .decMid ∧
      (busyBlock .encEmit .enc [.source .empty]).phase ≠ .decLast := by decide

/-- The largest terminal byte and the smallest continuation byte. -/
theorem witness_FirstByteStep :
    (busyBlock .decFirst .dec [.source (.byte 0x7F)]).phase = .decFirst ∧
      (busyBlock .decFirst .dec [.source (.byte 0x7F)]).schedule = .source (.byte 0x7F) :: [] ∧
      (busyBlock .decFirst .dec [.source (.byte 0x80)]).phase = .decFirst ∧
      (busyBlock .decFirst .dec [.source (.byte 0x80)]).schedule = .source (.byte 0x80) :: [] := by decide

theorem witness_EmptySourceUnderTrydecIsAbsent :
    (busyBlock .decFirst .trydec [.source .empty]).phase = .decFirst ∧
      (busyBlock .decFirst .trydec [.source .empty]).opk = .trydec ∧
      (busyBlock .decFirst .trydec [.source .empty]).schedule = .source .empty :: [] := by decide

/-- At the first request an error under TRYDEC, and an empty source under DEC; later an empty source and an
error, whichever error it is. -/
theorem witness_SourceErrorEndsTheDecode (e : Config.IoErr) :
    ((busyBlock .decFirst .trydec [.source (.err e)]).phase = .decFirst ∧
      (busyBlock .decFirst .trydec [.source (.err e)]).schedule = .source (.err e) :: []) ∧
    ((busyBlock .decFirst .dec [.source .empty]).phase = .decFirst ∧
      (busyBlock .decFirst .dec [.source .empty]).opk ≠ .trydec ∧
      (busyBlock .decFirst .dec [.source .empty]).schedule = .source .empty :: []) ∧
    ((busyBlock .decMid .trydec [.source .empty]).phase = .decMid ∧
      (busyBlock .decMid .trydec [.source .empty]).schedule = .source .empty :: []) ∧
    ((busyBlock .decLast .dec [.source (.err e)]).phase = .decLast ∧
      (busyBlock .decLast .dec [.source (.err e)]).schedule = .source (.err e) :: []) :=
  ⟨⟨rfl, rfl⟩, ⟨rfl, by decide, rfl⟩, ⟨rfl, rfl⟩, ⟨rfl, rfl⟩⟩

theorem witness_InteriorByteStep :
    (busyBlock .decMid .dec [.source (.byte 0x7F)]).phase = .decMid ∧
      (busyBlock .decMid .dec [.source (.byte 0x7F)]).schedule = .source (.byte 0x7F) :: [] ∧
      { busyBlock .decMid .dec [.source (.byte 0x80)] with off := 56 }.phase = .decMid ∧
      { busyBlock .decMid .dec [.source (.byte 0x80)] with off := 56 }.schedule =
        .source (.byte 0x80) :: [] := by decide

theorem witness_TenthByteOverflowCheck :
    (busyBlock .decLast .dec [.source (.byte 0x01)]).phase = .decLast ∧
      (busyBlock .decLast .dec [.source (.byte 0x01)]).schedule = .source (.byte 0x01) :: [] ∧
      (busyBlock .decLast .dec [.source (.byte 0x00)]).phase = .decLast ∧
      (busyBlock .decLast .dec [.source (.byte 0x00)]).schedule = .source (.byte 0x00) :: [] := by decide

/-- A value at each side of 2^32 under the native width, and one that is delivered whole. -/
theorem witness_DeliveryAndNarrowing :
    fitsNative .w32 true 0xFFFFFFFF = true ∧ fitsNative .w32 true 0x100000000 = false ∧
      fitsNative .w64 true 0x100000000 = true ∧ fitsNative .w32 false 0x100000000 = true := by decide

/-- A decode in DEC_MID, at its highest offset, with all of ACC's bits set. -/
def midState : State :=
  { busyBlock .decMid .dec [.source (.byte 0xFF)] with off := 56, cnt := 8, acc := 0xFFFFFFFFFFFFFF }

/-- A decode in DEC_LAST, with all of ACC's bits set. -/
def lastState : State :=
  { busyBlock .decLast .dec [] with off := 63, cnt := 9, acc := 0x7FFFFFFFFFFFFFFF }

theorem witness_midState_inv : Inv midState :=
  ⟨⟨by decide, by decide, by decide, by decide, by decide, by decide, by decide, by decide⟩,
    by decide, by decide, by decide, by decide, by decide, by decide⟩

theorem witness_lastState_inv : Inv lastState :=
  ⟨⟨by decide, by decide, by decide, by decide, by decide, by decide, by decide, by decide⟩,
    by decide, by decide, by decide, by decide, by decide, by decide⟩

theorem witness_DecoderAdditionsNeverCarry :
    Inv midState ∧ midState.phase = .decMid ∧ Inv lastState ∧ lastState.phase = .decLast :=
  ⟨witness_midState_inv, by decide, witness_lastState_inv, by decide⟩

theorem witness_DecodePhasesComputeOutcome :
    (busyBlock .decFirst .dec []).phase = .decFirst ∧ (busyBlock .decFirst .dec []).cnt = 0 ∧
      outcome (requestKind (busyBlock .decFirst .dec [])) [.byte 0xAC, .byte 0x02, .empty] =
        some (.ok 0x12C 2, [.empty]) ∧
      outcome (requestKind (busyBlock .decFirst .dec [])) [.byte 0xAC] = none := by decide

theorem witness_DecodeEndsWithinTenAnswers :
    (busyBlock .decFirst .dec []).phase = .decFirst ∧
      (List.replicate 10 (SrcAnswer.byte 0x80)).length = 10 := by decide

/-- The longest accepted sequence without, and the least with, bit 63. -/
theorem witness_AcceptedValueRanges :
    Accepted (List.replicate 8 0xFF ++ [0x7F]) ∧ (List.replicate 8 0xFF ++ [(0x7F : Byte)]).length ≤ 9 ∧
      Accepted (List.replicate 9 0x80 ++ [0x01]) ∧
      (List.replicate 9 0x80 ++ [(0x01 : Byte)]).length = 10 := by decide

theorem witness_AcceptedSequencesAreThoseDecodedOk :
    outcome .upTo [.byte 0xFF, .byte 0x00, .byte 0x07] = some (.ok 0x7F 2, [.byte 0x07]) := by decide

theorem witness_DecodeCommandsCompleteOnAcceptedBytes :
    (idleBlock 0 []).phase = .idle ∧ Accepted [0x80, 0x80, 0x80, 0x80, 0x10] := by decide

/-- A block in IDLE with one statement to run, its Source and its Sink. -/
def issueSystem (i : Instr) (operand : Word) (src : ListSource) (snk : ListSink) : System :=
  ⟨idleBlock operand [], [.issue i], src, snk⟩

theorem witness_RoundTrip :
    (issueSystem .dec64 0 ⟨enc 0x12C ++ [0x07], none, 0⟩ ⟨[], none⟩).block.phase = .idle ∧
      (issueSystem .dec64 0 ⟨enc 0x12C ++ [0x07], none, 0⟩ ⟨[], none⟩).program = [.issue .dec64] ∧
      (issueSystem .dec64 0 ⟨enc 0x12C ++ [0x07], none, 0⟩ ⟨[], none⟩).source =
        ⟨enc 0x12C ++ [0x07], none, 0⟩ := by decide

theorem witness_SinkStepsExactlyWhileEncoding :
    (busyBlock .encEmit .enc [.sink .ok]).schedule = .sink .ok :: [] ∧
      (busyBlock .encEmit .enc [.sink .ok]).phase = .encEmit ∧
      (idleBlock 0 [.sink .ok]).schedule = .sink .ok :: [] ∧ (idleBlock 0 [.sink .ok]).phase ≠ .encEmit := by
  decide

/-- The last group and the first that is not. -/
theorem witness_SinkAcceptsStep :
    { busyBlock .encEmit .enc [.sink .ok] with rem := 0x7F }.phase = .encEmit ∧
      { busyBlock .encEmit .enc [.sink .ok] with rem := 0x7F }.schedule = .sink .ok :: [] ∧
      { busyBlock .encEmit .enc [.sink .ok] with rem := 0x80 }.phase = .encEmit ∧
      { busyBlock .encEmit .enc [.sink .ok] with rem := 0x80 }.schedule = .sink .ok :: [] := by decide

theorem witness_SinkFailsStep :
    (busyBlock .encEmit .enc [.sink (.err .unexpectedEnd)]).phase = .encEmit ∧
      (busyBlock .encEmit .enc [.sink (.err .unexpectedEnd)]).schedule =
        .sink (.err .unexpectedEnd) :: [] := by decide

theorem witness_EncodingIsMinimalAndAccepted :
    Accepted [0xFF, 0x00] ∧ varintValue [0xFF, 0x00] = (0x7F : Word).toNat ∧
      (enc 0x8000000000000000).length = 10 := by decide

theorem witness_EncodeCommandsComplete :
    (idleBlock 0x12C []).phase = .idle ∧ (0x12C : Word) = (idleBlock 0x12C []).operand ∧
      (5 : Word) = lowBits .w32 (idleBlock 0x100000005 []).operand := by decide

/-- DV-K2: the second byte of 0x12C fails. -/
theorem witness_FailingSinkKeepsTheBytesBeforeIt :
    (issueSystem .enc64 0x12C ⟨[], none, 0⟩ ⟨[], some (1, .unexpectedEnd)⟩).block.phase = .idle ∧
      (issueSystem .enc64 0x12C ⟨[], none, 0⟩ ⟨[], some (1, .unexpectedEnd)⟩).program = [.issue .enc64] ∧
      1 < len7 (issueSystem .enc64 0x12C ⟨[], none, 0⟩ ⟨[], some (1, .unexpectedEnd)⟩).block.operand ∧
      (issueSystem .enc64 0x12C ⟨[], none, 0⟩ ⟨[], some (1, .unexpectedEnd)⟩).sink.failure =
        some ((issueSystem .enc64 0x12C ⟨[], none, 0⟩ ⟨[], some (1, .unexpectedEnd)⟩).sink.out.length + 1,
          .unexpectedEnd) := by decide

theorem witness_ResetInputRestoresTheResetValues :
    (busyBlock .decMid .dec [.reset]).schedule = .reset :: [] := by decide

theorem witness_StepKeepsTheInvariant :
    Inv midState ∧ ∃ t, step midState = .next t ∧ t.phase = .decLast :=
  ⟨witness_midState_inv, _, rfl, by decide⟩

/-- One step from a start: a decode waits for its first byte. -/
theorem witness_ReachableStatesSatisfyTheSequencingClauses :
    ∃ s, Reachable s ∧ s.phase = .decFirst :=
  ⟨_, ⟨⟨.w32, false⟩, [cmd 0x2], 1, rfl⟩, by decide⟩

/-- An OK completion and a reset, each changing RESULT. -/
theorem witness_ResultChangesOnlyAtAnOkCompletion :
    view (fun t => decide (t.result ≠ 0)) (step (busyBlock .lenExec .len [.datapath])) = some true ∧
      (busyBlock .lenExec .len [.datapath]).result = 0 ∧
      view State.result (step { idleBlock 0 [.reset] with result := 7 }) = some 0 := by decide

theorem witness_ReportStaysUntilTheNextCommand :
    (idleBlock 0 [.host (.write 64 0x08 1)]).phase = .idle ∧
      view State.operand (step (idleBlock 0 [.host (.write 64 0x08 1)])) = some 1 ∧
      (idleBlock 0 [.host (.write 64 0x08 1)]).schedule.head? = some (.host (.write 64 0x08 1)) := by decide

theorem witness_OperandChangesOnlyByHostWrite :
    view State.operand (step (idleBlock 0 [.host (.write 64 0x08 1)])) = some 1 ∧
      view State.operand (step (idleBlock 5 [.reset])) = some 0 := by decide

theorem witness_CmdLostChangesOnlyByCmdWrites :
    view State.cmdLost (step (busyBlock .decMid .dec [cmd 0x1])) = some true ∧
      (busyBlock .decMid .dec [cmd 0x1]).cmdLost = false ∧
      view State.cmdLost (step { idleBlock 0 [cmd 0x1] with cmdLost := true }) = some false := by decide

theorem witness_NoStepChangesTheParameters :
    view State.params (step (idleBlock 0 [.reset])) = some ⟨.w32, false⟩ := by decide

theorem witness_StreamsGrowByTheAnsweredBytes :
    view State.srcTaken (step (busyBlock .decMid .dec [.source (.byte 0x80)])) = some [0x80] ∧
      view State.sinkStream (step { busyBlock .encEmit .enc [.sink .ok] with rem := 5 }) = some [5] := by
  decide

theorem witness_HostCannotDisturbACommand :
    (busyBlock .decMid .dec []).phase ≠ .idle ∧
      view State.cmdLost (hostMove (.write 64 0x00 0x1) (busyBlock .decMid .dec [])) = some true ∧
      ∀ a, Move.source .empty ≠ .host a := by
  refine ⟨by decide, by decide, fun a h => ?_⟩
  cases h

theorem witness_LastReportIsNoInput : (idleBlock 0 []).phase = .idle := by decide

/-- The replacement that leaves no error but `unexpectedEnd`, and a state with an error to be answered. -/
theorem witness_ErrorsAreCarriedUntested (e : Config.IoErr) :
    (fun _ : Config.IoErr => Config.IoErr.unexpectedEnd) .unexpectedEnd = .unexpectedEnd ∧
      view State.err (step (busyBlock .decMid .dec [.source (.err e)])) = some (some e) :=
  ⟨rfl, rfl⟩

/-- Two states that differ in OPK, NW, ACC, OFF and CNT, none of them live in IDLE. -/
theorem witness_DeadRegistersAreNeverObserved :
    observable (idleBlock 0 []) =
        observable { idleBlock 0 [] with opk := .enc, nw := true, acc := 1, off := 7, cnt := 3 } ∧
      idleBlock 0 [] ≠ { idleBlock 0 [] with opk := .enc, nw := true, acc := 1, off := 7, cnt := 3 } := by
  decide

theorem witness_NativeWidth64IsThe64BitCommand :
    { busyBlock .decMid .dec [] with params := ⟨.w64, true⟩ }.params.nativeWidth = .w64 ∧
      withoutWidth { busyBlock .decMid .dec [] with params := ⟨.w64, true⟩ } =
        withoutWidth { busyBlock .decMid .dec [] with params := ⟨.w64, true⟩, nw := true } ∧
      { busyBlock .decMid .dec [] with params := ⟨.w64, true⟩ } ≠
        { busyBlock .decMid .dec [] with params := ⟨.w64, true⟩, nw := true } := by decide

/-- A platform that shares a Sink, and one that steps. -/
theorem witness_BlocksOfAPlatformAreIndependent :
    Platform.step 0 [⟨idleBlock 0 [], 0, 5⟩, ⟨idleBlock 0 [], 1, 5⟩] = .refused .sharedStream ∧
      ∃ q, Platform.step 1 [⟨idleBlock 0 [], 0, 0⟩, ⟨idleBlock 0 [cmd 0x1], 1, 1⟩] = .next q :=
  ⟨by rfl, _, rfl⟩

/-- A due failure and one that is not, a byte and none, for both environments. -/
theorem witness_ReferenceEnvironments :
    (ListSource.mk [0x80, 0x01] (some (1, .unexpectedEnd)) 1).failure =
        some ((ListSource.mk [0x80, 0x01] (some (1, .unexpectedEnd)) 1).consumed, .unexpectedEnd) ∧
      (ListSource.mk [0x80, 0x01] (some (1, .unexpectedEnd)) 0).answer = .byte 0x80 ∧
      (ListSource.mk [] none 2).answer = .empty ∧
      (ListSink.mk [0xAC] (some (1, .unexpectedEnd))).failure =
        some ((ListSink.mk [0xAC] (some (1, .unexpectedEnd))).out.length, .unexpectedEnd) ∧
      (ListSink.mk [] (some (1, .unexpectedEnd))).answer = .ok := by decide

theorem witness_HostStatementsRun :
    (System.mk (idleBlock 0 []) [.wait, .issue .len64] ⟨[], none, 0⟩ ⟨[], none⟩).program =
        .wait :: [.issue .len64] ∧
      (issueSystem .len64 0 ⟨[], none, 0⟩ ⟨[], none⟩).program = .issue .len64 :: [] := by decide

end Sys2Proof.Tests
end

section
/-! PROOFS. The scope (R6, R8): the block carries errors without testing them, and with W_N = 64 the
native-width select decides nothing. Both are statements about two steps, each seen through a view. -/

namespace Sys2Proof.Proofs

open Sys2Proof.Machine Sys2Proof.Safety Sys2Proof.Statement

/-! ### Two moves that look alike

A move of `s` seen through `h` and one of `t` seen through `h'`: where the two states agree on what the
guards read, a statement about the outcomes is one about each single update. The Source's and the Sink's
answers may differ in the error they report. -/

section Alike

variable {h h' : State → State} {s t : State} {f : Config.IoErr → Config.IoErr}

theorem issue_alike {k : Op} {n : Bool} (hp : s.phase = t.phase)
    (haccept : h (accept k n s) = h' (accept k n t)) (hlose : h (loseCommand s) = h' (loseCommand t)) :
    h (issue k n s) = h' (issue k n t) := by
  by_cases ht : t.phase = .idle
  · rwa [issue_idle ht, issue_idle (hp.trans ht)]
  · rwa [issue_busy ht, issue_busy (hp ▸ ht)]

theorem issueIllegal_alike (hp : s.phase = t.phase)
    (htake : h (takeException .illegalCmd (clearReport s)) =
      h' (takeException .illegalCmd (clearReport t)))
    (hlose : h (loseCommand s) = h' (loseCommand t)) :
    h (issueIllegal s) = h' (issueIllegal t) := by
  by_cases ht : t.phase = .idle
  · rwa [issueIllegal_idle ht, issueIllegal_idle (hp.trans ht)]
  · rwa [issueIllegal_busy ht, issueIllegal_busy (hp ▸ ht)]

theorem hostMove_alike {acc : HostAccess} (hself : h s = h' t)
    (hread : ∀ a, h (hostRead a s) = h' (hostRead a t))
    (hoperand : ∀ w, h (setOperand w s) = h' (setOperand w t))
    (hissue : ∀ k n, h (issue k n s) = h' (issue k n t))
    (hillegal : h (issueIllegal s) = h' (issueIllegal t)) :
    seen h (hostMove acc s) = seen h' (hostMove acc t) := by
  by_cases hw : acc.wellFormed = true
  case neg => rw [hostMove_refused s hw, hostMove_refused t hw]; rfl
  cases acc with
  | read width a =>
    obtain ⟨rfl, ha⟩ := (wellFormed_read_iff width a).1 hw
    rw [hostMove_read s ha, hostMove_read t ha]
    exact congrArg Host.Outcome.next (hread a)
  | write width a w =>
    obtain ⟨rfl, ha⟩ := (wellFormed_write_iff width a w).1 hw
    rw [hostMove_write s ha, hostMove_write t ha]
    unfold hostWrite
    split_ifs
    · cases hd : decode w with
      | some i =>
        rw [writeCmd_legal s hd, writeCmd_legal t hd, exec_eq_issue, exec_eq_issue]
        exact congrArg Host.Outcome.next (hissue _ _)
      | none =>
        rw [writeCmd_illegal s hd, writeCmd_illegal t hd]
        exact congrArg Host.Outcome.next hillegal
    · exact congrArg Host.Outcome.next (hoperand w)
    · exact congrArg Host.Outcome.next hself

theorem lenMove_alike (hp : s.phase = t.phase) (hlen : h (lenStep s) = h' (lenStep t)) :
    seen h (lenMove s) = seen h' (lenMove t) := by
  by_cases ht : t.phase = .lenExec
  · rw [lenMove_enabled ht, lenMove_enabled (hp.trans ht)]
    exact congrArg Host.Outcome.next hlen
  · rw [lenMove_disabled ht, lenMove_disabled (hp ▸ ht)]; rfl

theorem unscheduled_alike (hp : s.phase = t.phase) (hself : h s = h' t)
    (hlen : h (lenStep s) = h' (lenStep t)) : h (unscheduled s) = h' (unscheduled t) := by
  unfold unscheduled
  rw [hp]
  split_ifs
  · exact hlen
  · exact hself

theorem sinkMove_alike {a : SinkAnswer} (hp : s.phase = t.phase) (hrem : s.rem = t.rem)
    (hlast : h (finishCounted (emitByte s)) = h' (finishCounted (emitByte t)))
    (hmore : h (emitByte s) = h' (emitByte t))
    (herr : ∀ e, h (takeException (.sinkErr (f e)) s) = h' (takeException (.sinkErr e) t)) :
    seen h (sinkMove (renameSinkAnswer f a) s) = seen h' (sinkMove a t) := by
  by_cases ht : t.phase = .encEmit
  case neg => rw [sinkMove_disabled ht, sinkMove_disabled (hp ▸ ht)]; rfl
  rw [sinkMove_enabled ht, sinkMove_enabled (hp.trans ht)]
  refine congrArg Host.Outcome.next ?_
  cases a with
  | ok =>
    simp only [renameSinkAnswer, encEmit, hrem]
    split_ifs
    · exact hlast
    · exact hmore
  | err e => exact herr e

theorem exactRead_renameAnswer (hf : f .unexpectedEnd = .unexpectedEnd) (a : SrcAnswer) :
    exactRead (renameAnswer f a) = (exactRead a).mapError f := by
  cases a with
  | byte b => rfl
  | empty => exact congrArg Except.error hf.symm
  | err e => rfl

theorem srcRead_renameAnswer (hf : f .unexpectedEnd = .unexpectedEnd) (k : RequestKind)
    (a : SrcAnswer) : srcRead k (renameAnswer f a) = renameAnswer f (srcRead k a) := by
  cases k with
  | upTo => rfl
  | exact =>
    simp only [srcRead, exactRead_renameAnswer hf]
    cases exactRead a <;> rfl

theorem sourceMove_alike {a : SrcAnswer} (hf : f .unexpectedEnd = .unexpectedEnd)
    (hp : s.phase = t.phase) (hkind : requestKind s = requestKind t)
    (hfirst : ∀ b, h (decFirstByte b s) = h' (decFirstByte b t))
    (hmid : ∀ b, h (decMidByte b s) = h' (decMidByte b t))
    (hlast : ∀ b, h (decLastByte b s) = h' (decLastByte b t))
    (habsent : h (finish .absent (setCount 0 s)) = h' (finish .absent (setCount 0 t)))
    (herr : ∀ e, h (takeException (.srcErr (f e)) s) = h' (takeException (.srcErr e) t)) :
    seen h (sourceMove (renameAnswer f a) s) = seen h' (sourceMove a t) := by
  unfold sourceMove
  rw [hp]
  cases t.phase with
  | idle => rfl
  | lenExec => rfl
  | encEmit => rfl
  | decFirst =>
    refine congrArg Host.Outcome.next ?_
    unfold decFirst
    rw [srcRead_renameAnswer hf, hkind]
    cases srcRead (requestKind t) a with
    | byte b => exact hfirst b
    | empty => exact habsent
    | err e => exact herr e
  | decMid =>
    refine congrArg Host.Outcome.next ?_
    unfold decMid
    rw [exactRead_renameAnswer hf]
    cases exactRead a with
    | ok b => exact hmid b
    | error e => exact herr e
  | decLast =>
    refine congrArg Host.Outcome.next ?_
    unfold decLast
    rw [exactRead_renameAnswer hf]
    cases exactRead a with
    | ok b => exact hlast b
    | error e => exact herr e

end Alike

/-! ### Errors are only carried (R8)

Each update of the block with the errors replaced before it is the update with the errors replaced after
it: no guard reads an error, and the one error that the block makes stands for itself. -/

section Errors

variable {f : Config.IoErr → Config.IoErr} (s : State)

theorem accept_renameErrors (k : Op) (n : Bool) :
    accept k n (renameErrors f s) = renameErrors f (accept k n s) := by
  cases k <;> rfl

theorem finishCounted_renameErrors :
    finishCounted (renameErrors f s) = renameErrors f (finishCounted s) := rfl

theorem emitByte_renameErrors : emitByte (renameErrors f s) = renameErrors f (emitByte s) := by
  simp only [emitByte, setRem, putByte, renameErrors]

theorem deliver_renameErrors (v : Word) :
    deliver v (renameErrors f s) = renameErrors f (deliver v s) := by
  by_cases hfit : fitsNative s.params.nativeWidth s.nw v = true
  · rw [deliver_fits hfit, deliver_fits (by exact hfit)]
    exact finishCounted_renameErrors (setResult v s)
  · by_cases hr : s.params.narrowReject = true
    · rw [deliver_rejects hfit hr, deliver_rejects (by exact hfit) (by exact hr)]; rfl
    · rw [deliver_truncates hfit hr, deliver_truncates (by exact hfit) (by exact hr)]
      exact finishCounted_renameErrors (setResult (nativeTrunc s.params.nativeWidth v) s)

theorem advanceOffset_renameErrors :
    advanceOffset (renameErrors f s) = renameErrors f (advanceOffset s) := by
  simp only [advanceOffset, apply_ite (renameErrors f)]
  rfl

theorem decFirstByte_renameErrors (b : Byte) :
    decFirstByte b (renameErrors f s) = renameErrors f (decFirstByte b s) := by
  unfold decFirstByte
  split_ifs
  · exact deliver_renameErrors (takeByte b s) _
  · simp only [setPhase, setOff, setAcc, takeByte, renameErrors]

theorem decMidByte_renameErrors (c : Byte) :
    decMidByte c (renameErrors f s) = renameErrors f (decMidByte c s) := by
  unfold decMidByte
  split_ifs
  · exact deliver_renameErrors (setAcc (addGroup c s) (takeByte c s)) _
  · exact advanceOffset_renameErrors (setAcc (addGroup c s) (takeByte c s))

theorem decLastByte_renameErrors (d : Byte) :
    decLastByte d (renameErrors f s) = renameErrors f (decLastByte d s) := by
  unfold decLastByte
  split_ifs
  · exact deliver_renameErrors (setAcc (addTopBit s) (takeByte d s)) _
  · rfl

/-- Where the errors are replaced, the Host's record is blanked already. -/
theorem withoutReads_eq_renameErrors {a b : State} (h : a = renameErrors f b) :
    withoutReads a = renameErrors f b := by
  rw [h]; rfl

/-- The Host's record is blanked because a read of ERRINFO returns the error's encoding. -/
theorem move_renameErrors (hf : f .unexpectedEnd = .unexpectedEnd) (m : Move) :
    seen withoutReads (move (renameMove f m) (renameErrors f s)) =
      seen (renameErrors f) (move m s) := by
  cases m with
  | host acc =>
    exact hostMove_alike rfl (fun _ => rfl) (fun _ => rfl)
      (fun k n => issue_alike rfl (withoutReads_eq_renameErrors (accept_renameErrors s k n)) rfl)
      (issueIllegal_alike rfl rfl rfl)
  | datapath => exact lenMove_alike rfl rfl
  | source a =>
    exact sourceMove_alike hf rfl rfl
      (fun b => withoutReads_eq_renameErrors (decFirstByte_renameErrors s b))
      (fun b => withoutReads_eq_renameErrors (decMidByte_renameErrors s b))
      (fun b => withoutReads_eq_renameErrors (decLastByte_renameErrors s b)) rfl (fun _ => rfl)
  | sink a =>
    exact sinkMove_alike rfl rfl
      (withoutReads_eq_renameErrors (by rw [emitByte_renameErrors, finishCounted_renameErrors]))
      (withoutReads_eq_renameErrors (emitByte_renameErrors s)) (fun _ => rfl)
  | reset => rfl

theorem step_renameErrors (hf : f .unexpectedEnd = .unexpectedEnd) :
    seen withoutReads (step (renameErrors f s)) = seen (renameErrors f) (step s) := by
  cases hs : s.schedule with
  | nil =>
    rw [step_of_unscheduled hs, step_of_unscheduled (congrArg (List.map (renameMove f)) hs)]
    exact congrArg Host.Outcome.next (unscheduled_alike rfl rfl rfl)
  | cons m ms =>
    rw [step_of_schedule hs, step_of_schedule (congrArg (List.map (renameMove f)) hs)]
    exact move_renameErrors (setSchedule ms s) hf m

end Errors

/-- Settles O55: replacing errors commutes with every update of the block, so with every move. -/
theorem errorsAreCarriedUntested : Obligations.ErrorsAreCarriedUntested := by
  unfold Obligations.ErrorsAreCarriedUntested
  exact fun f hf s => step_renameErrors s hf

/-! ### With W_N = 64 the native-width select decides nothing (R6)

NW is read in two places, `opval` and `deliver`, and there 64 bits are the whole word. -/

theorem opval_w64 (n : Bool) (v : Word) : opval .w64 n v = v := by
  cases n with
  | false => rfl
  | true => exact nativeTrunc_w64 v

theorem renameMove_id (m : Move) : renameMove id m = m := by
  cases m with
  | source a => cases a <;> rfl
  | sink a => cases a <;> rfl
  | host acc => rfl
  | datapath => rfl
  | reset => rfl

theorem withoutWidth_eq_withoutWidth {a b : State} (h : a = withoutWidth b) :
    withoutWidth a = withoutWidth b := by
  rw [h]; rfl

theorem advanceOffset_withoutWidth (s : State) :
    advanceOffset (withoutWidth s) = withoutWidth (advanceOffset s) := by
  simp only [advanceOffset, apply_ite withoutWidth]
  rfl

section Width

variable {s : State} (hw : s.params.nativeWidth = .w64)
include hw

theorem enterCommand_w64 (k : Op) (n : Bool) : enterCommand k n s = enterCommand k false s := by
  simp only [enterCommand, hw, opval_w64]

/-- The width a command asks for, and the one latched before it, leave no trace but NW. -/
theorem accept_withoutWidth (k : Op) (n : Bool) :
    withoutWidth (accept k n s) = withoutWidth (accept k false (withoutWidth s)) := by
  rw [accept, enterCommand_w64 (s := latchCommand k n (clearReport s)) hw]
  cases k <;> rfl

theorem issue_withoutWidth (k : Op) (n : Bool) :
    withoutWidth (issue k n s) = withoutWidth (issue k false (withoutWidth s)) := by
  by_cases hp : s.phase = .idle
  · rw [issue_idle hp, issue_idle (by exact hp), accept_withoutWidth hw]
  · rw [issue_busy hp, issue_busy (by exact hp)]; rfl

/-- Commands of one kind differ by NW alone. -/
theorem exec_withoutWidth {i j : Instr} (hk : kindOf i = kindOf j) :
    seen withoutWidth (exec i s) = seen withoutWidth (exec j s) := by
  rw [exec_eq_issue, exec_eq_issue, hk]
  exact congrArg Host.Outcome.next
    ((issue_withoutWidth hw _ _).trans (issue_withoutWidth hw _ _).symm)

theorem deliver_w64 (v : Word) : deliver v s = finishCounted (setResult v s) :=
  deliver_fits ((fitsNative_iff _ _ _).2 (.inr (.inl hw)))

theorem deliver_withoutWidth (v : Word) :
    deliver v (withoutWidth s) = withoutWidth (deliver v s) := by
  rw [deliver_w64 hw, deliver_w64 (s := withoutWidth s) hw]; rfl

theorem decFirstByte_withoutWidth (b : Byte) :
    decFirstByte b (withoutWidth s) = withoutWidth (decFirstByte b s) := by
  unfold decFirstByte
  split_ifs
  · exact deliver_withoutWidth (s := takeByte b s) hw _
  · simp only [setPhase, setOff, setAcc, takeByte, withoutWidth]

theorem decMidByte_withoutWidth (c : Byte) :
    decMidByte c (withoutWidth s) = withoutWidth (decMidByte c s) := by
  unfold decMidByte
  split_ifs
  · exact deliver_withoutWidth (s := setAcc (addGroup c s) (takeByte c s)) hw _
  · exact advanceOffset_withoutWidth (setAcc (addGroup c s) (takeByte c s))

theorem decLastByte_withoutWidth (d : Byte) :
    decLastByte d (withoutWidth s) = withoutWidth (decLastByte d s) := by
  unfold decLastByte
  split_ifs
  · exact deliver_withoutWidth (s := setAcc (addTopBit s) (takeByte d s)) hw _
  · rfl

theorem move_withoutWidth (m : Move) :
    seen withoutWidth (move m (withoutWidth s)) = seen withoutWidth (move m s) := by
  conv_lhs => rw [← renameMove_id m]
  cases m with
  | host acc =>
    exact hostMove_alike rfl (fun _ => rfl) (fun _ => rfl)
      (fun k n => (issue_withoutWidth (s := withoutWidth s) hw k n).trans
        (issue_withoutWidth hw k n).symm)
      (issueIllegal_alike rfl rfl rfl)
  | datapath => exact lenMove_alike rfl rfl
  | source a =>
    exact sourceMove_alike rfl rfl rfl
      (fun b => withoutWidth_eq_withoutWidth (decFirstByte_withoutWidth hw b))
      (fun b => withoutWidth_eq_withoutWidth (decMidByte_withoutWidth hw b))
      (fun b => withoutWidth_eq_withoutWidth (decLastByte_withoutWidth hw b)) rfl (fun _ => rfl)
  | sink a =>
    exact sinkMove_alike rfl rfl rfl rfl (fun _ => rfl)
  | reset => rfl

theorem step_withoutWidth :
    seen withoutWidth (step (withoutWidth s)) = seen withoutWidth (step s) := by
  cases hs : s.schedule with
  | nil =>
    rw [step_of_unscheduled hs, step_of_unscheduled (s := withoutWidth s) hs]
    exact congrArg Host.Outcome.next (unscheduled_alike rfl rfl rfl)
  | cons m ms =>
    rw [step_of_schedule hs, step_of_schedule (s := withoutWidth s) hs]
    exact move_withoutWidth (s := setSchedule ms s) hw m

end Width

/-- Settles O57: narrowing to 64 bits changes nothing, so blanking NW before a step and after it is
blanking it after it. -/
theorem nativeWidth64IsThe64BitCommand : Obligations.NativeWidth64IsThe64BitCommand := by
  unfold Obligations.NativeWidth64IsThe64BitCommand
  refine ⟨fun s hw => ⟨exec_withoutWidth hw rfl, exec_withoutWidth hw rfl, exec_withoutWidth hw rfl,
    exec_withoutWidth hw rfl⟩, fun s t hw hst => ?_⟩
  have hwt : t.params.nativeWidth = .w64 :=
    (congrArg (fun u => u.params.nativeWidth) hst.symm).trans hw
  calc seen withoutWidth (step s)
      = seen withoutWidth (step (withoutWidth s)) := (step_withoutWidth hw).symm
    _ = seen withoutWidth (step (withoutWidth t)) := by rw [hst]
    _ = seen withoutWidth (step t) := step_withoutWidth hwt

end Sys2Proof.Proofs
end

section
/-! PROOFS. The state's invariant (R35): every step keeps it, so it holds in every reachable state. -/

namespace Sys2Proof.Proofs

open Sys2Proof.Machine Sys2Proof.Safety Sys2Proof.Statement

/-! ### The invariant where a command ends or starts -/

/-- The invariant does not read the Host's registers, RESULT, the streams or the model's bookkeeping. -/
theorem inv_of_registers {s : State} (h : Inv s) (params : Config.Params) (operand result : Word)
    (cmdLost : Bool) (taken stream : List Byte) (reads : List (Nat × Word)) (draws : Nat)
    (moves : List Move) :
    Inv { s with params := params, operand := operand, result := result, cmdLost := cmdLost,
                 srcTaken := taken, sinkStream := stream, hostReads := reads, draws := draws,
                 schedule := moves } :=
  { h with seq := { h.seq with } }

/-- In IDLE the invariant is BUSY = 0 and the ranges of the report: the other clauses are about phases. -/
theorem inv_of_idle {s : State} (hp : s.phase = .idle) (hb : s.busy = false)
    (he : s.err.isSome = true ↔ s.code = .srcErr ∨ s.code = .sinkErr) (hc : s.cnt.toNat ≤ 10)
    (hn : s.code = .none ∨ s.code = .ok ∨ s.code = .absent ∨ s.code = .illegalCmd →
      s.count.toNat ≤ 10) : Inv s where
  seq := by constructor <;> simp [hp, hb]
  first_cnt := by simp [hp]
  emit_left := by simp [hp]
  running_report := by simp [hp]
  err_iff := he
  cnt_le := hc
  count_le := hn

/-- What the invariant says of every command in progress: BUSY = 1, and the report at its accept-time
values (R35 (a) and (f), R117). -/
structure Running (s : State) : Prop where
  busy : s.busy = true
  code : s.code = .none
  count : s.count = 0
  err : s.err = none

theorem running_of_inv {s : State} (h : Inv s) (hp : s.phase ≠ .idle) : Running s :=
  ⟨h.seq.busy_iff.2 hp, h.seq.running hp, (h.running_report hp).1, (h.running_report hp).2⟩

/-- With the report at its accept-time values the invariant is R35 and what its clauses need of CNT and
REM (R32, R93). -/
theorem inv_of_running {s : State} (h : Running s) (hseq : Sequencing s)
    (hfirst : s.phase = .decFirst → s.cnt = 0)
    (hleft : s.phase = .encEmit → s.cnt.toNat ≤ 9 ∧ s.rem.toNat < 2 ^ (64 - 7 * s.cnt.toNat))
    (hc : s.cnt.toNat ≤ 10) : Inv s where
  seq := hseq
  first_cnt := hfirst
  emit_left := hleft
  running_report := fun _ => ⟨h.count, h.err⟩
  err_iff := by simp [h.err, h.code]
  cnt_le := hc
  count_le := by simp [h.count]

theorem inv_resetBlock (s : State) : Inv (resetBlock s) :=
  inv_of_idle rfl rfl (by simp) (by simp) (by simp)

/-- An accepted command leaves nothing of the state before it that the invariant reads (R60). -/
theorem inv_accept (k : Op) (n : Bool) (s : State) : Inv (accept k n s) := by
  obtain ⟨r, p, e, hkind⟩ := accept_spec s k n
  rw [e]
  refine inv_of_running ⟨rfl, rfl, rfl, rfl⟩ ?_ (fun _ => rfl) (fun _ => ⟨by simp, r.isLt⟩) (by simp)
  obtain ⟨rfl, rfl, -⟩ | ⟨rfl, rfl, -⟩ | ⟨hk, rfl, -⟩ := hkind
  · constructor <;> simp
  · constructor <;> simp
  · constructor <;> simp [hk]

section Ending

variable {s : State} (he : s.err = none) (hc : s.cnt.toNat ≤ 10)
include he hc

/-- An exception leaves the ranges of R22 and R25: only SRC_ERR and SINK_ERR record an error, and only
ILLEGAL_CMD a COUNT (R101, R24). -/
theorem inv_takeException (x : Exception) : Inv (takeException x s) := by
  refine inv_of_idle rfl rfl ?_ (by simpa using hc) ?_
  · cases x <;> simp [takeException, recordErr, recordCount, Exception.code, finish, he]
  · cases x <;> simp [takeException, recordErr, recordCount, Exception.code, finish]

theorem inv_finish_ok {n : Count} (hn : n.toNat ≤ 10) : Inv (finish .ok (setCount n s)) :=
  inv_of_idle rfl rfl (by simp [he]) hc (fun _ => hn)

theorem inv_finish_absent : Inv (finish .absent (setCount 0 s)) :=
  inv_of_idle rfl rfl (by simp [he]) hc (fun _ => by simp)

theorem inv_deliver (v : Word) : Inv (deliver v s) := by
  obtain ⟨r, n, d, c, e, hend⟩ := deliver_spec s v
  rw [e]
  obtain ⟨rfl, rfl⟩ | ⟨rfl, -⟩ := hend
  · exact inv_of_idle rfl rfl (by simp [he]) hc (fun _ => hc)
  · exact inv_of_idle rfl rfl (by simp [he]) hc (by simp)

end Ending

/-! ### The invariant along a command -/

theorem inv_issue {s : State} (h : Inv s) (k : Op) (n : Bool) : Inv (issue k n s) := by
  by_cases hp : s.phase = .idle
  · rw [issue_idle hp]; exact inv_accept k n s
  · rw [issue_busy hp]; exact inv_of_registers h ..

theorem inv_issueIllegal {s : State} (h : Inv s) : Inv (issueIllegal s) := by
  by_cases hp : s.phase = .idle
  · rw [issueIllegal_idle hp]
    exact inv_takeException (s := clearReport s) rfl h.cnt_le .illegalCmd
  · rw [issueIllegal_busy hp]; exact inv_of_registers h ..

theorem inv_lenStep {s : State} (h : Inv s) (hp : s.phase = .lenExec) : Inv (lenStep s) :=
  inv_finish_ok (s := setResult (BitVec.ofNat 64 (len7 s.rem)) s)
    (h.running_report (by simp [hp])).2 h.cnt_le (n := 0) (by simp)

/-- In a decode phase after the first the invariant is R35 (c) or (d), with the kind of the command. -/
theorem inv_of_decMid {s : State} (h : Running s) (hp : s.phase = .decMid)
    (hk : s.opk = .dec ∨ s.opk = .trydec) (ho : s.off.toNat ∈ [7, 14, 21, 28, 35, 42, 49, 56])
    (hc : s.cnt.toNat = s.off.toNat / 7) (ha : s.acc.toNat < 2 ^ s.off.toNat) : Inv s := by
  refine inv_of_running h ?_ (by simp [hp]) (by simp [hp]) (by simp at ho; omega)
  constructor <;> simp [hp, h.busy, h.code, hk, ha, hc]
  simpa using ho

theorem inv_of_decLast {s : State} (h : Running s) (hp : s.phase = .decLast)
    (hk : s.opk = .dec ∨ s.opk = .trydec) (ho : s.off.toNat = 63) (hc : s.cnt.toNat = 9)
    (ha : s.acc.toNat < 2 ^ 63) : Inv s := by
  refine inv_of_running h ?_ (by simp [hp]) (by simp [hp]) (by omega)
  constructor <;> simp [hp, h.busy, h.code, hk, ho, hc]
  simpa using ha

theorem inv_of_encEmit {s : State} (h : Running s) (hp : s.phase = .encEmit) (hk : s.opk = .enc)
    (hr : s.rem ≠ 0) (hc : s.cnt.toNat ≤ 9) (hl : s.rem.toNat < 2 ^ (64 - 7 * s.cnt.toNat)) :
    Inv s := by
  refine inv_of_running h ?_ (by simp [hp]) (fun _ => ⟨hc, hl⟩) (by omega)
  constructor <;> simp [hp, h.busy, h.code, hk]
  exact .inl hr

/-- A byte is counted exactly while there is room for it (R32). -/
theorem toNat_succ_of_le {c : Count} (h : c.toNat ≤ 9) : (c + 1).toNat = c.toNat + 1 := by
  rw [BitVec.toNat_add]
  simp
  omega

/-- A group added at an offset above ACC stays below the next offset (R79). -/
theorem toNat_addGroup_lt {s : State} (c : Byte) (ha : s.acc.toNat < 2 ^ s.off.toNat) :
    (addGroup c s).toNat < 2 ^ (s.off.toNat + 7) := by
  have hgroup : (payload c).toNat * 2 ^ s.off.toNat ≤ 127 * 2 ^ s.off.toNat :=
    Nat.mul_le_mul_right _ (by rw [toNat_payload]; omega)
  calc (addGroup c s).toNat
      ≤ s.acc.toNat + (payload c).toNat * 2 ^ s.off.toNat := by
        simp only [addGroup, BitVec.toNat_add, BitVec.toNat_shiftLeft, BitVec.toNat_setWidth,
          Nat.shiftLeft_eq]
        exact (Nat.mod_le _ _).trans (Nat.add_le_add_left ((Nat.mod_le _ _).trans
          (Nat.mul_le_mul_right _ (Nat.mod_le _ _))) _)
    _ < 2 ^ (s.off.toNat + 7) := by rw [pow_add]; omega

theorem inv_decFirst {s : State} (h : Inv s) (hp : s.phase = .decFirst) (a : SrcAnswer) :
    Inv (decFirst a s) := by
  have hrun := running_of_inv h (by simp [hp])
  have hcnt := h.first_cnt hp
  rcases decFirst_cases s a with ⟨b, -, -, e⟩ | ⟨b, -, -, e⟩ | ⟨-, -, e⟩ | ⟨x, -, e⟩ <;> rw [e]
  · exact inv_deliver (s := takeByte b s) hrun.err (by simp [hcnt]) _
  · refine inv_of_decMid { hrun with } rfl (h.seq.dec_op (.inl hp)) (by simp) (by simp [hcnt]) ?_
    simp [toNat_payload]
    omega
  · exact inv_finish_absent hrun.err h.cnt_le
  · exact inv_takeException hrun.err h.cnt_le _

theorem inv_decMid {s : State} (h : Inv s) (hp : s.phase = .decMid) (a : SrcAnswer) :
    Inv (decMid a s) := by
  have hrun := running_of_inv h (by simp [hp])
  have hk := h.seq.dec_op (.inr (.inl hp))
  obtain ⟨ho, hc, ha⟩ := h.seq.mid hp
  have hle : s.off.toNat ≤ 56 := by simp at ho; omega
  have hcnt : (s.cnt + 1).toNat = s.off.toNat / 7 + 1 := by
    rw [toNat_succ_of_le (by omega), hc]
  have hoff : (s.off + 7).toNat = s.off.toNat + 7 := by
    rw [BitVec.toNat_add]; simp; omega
  rcases decMid_cases s a with ⟨c, -, -, e⟩ | ⟨c, -, -, e⟩ | ⟨x, -, e⟩ <;> rw [e]
  · exact inv_deliver (s := setAcc (addGroup c s) (takeByte c s)) hrun.err
      (hcnt.trans_le (by omega)) _
  · have hacc : (addGroup c s).toNat < 2 ^ (s.off + 7).toNat := hoff ▸ toNat_addGroup_lt c ha
    by_cases h63 : s.off + 7 = 63
    · have hlast : (s.off + 7).toNat = 63 := congrArg BitVec.toNat h63
      exact inv_of_decLast { hrun with } (if_pos h63) hk hlast (hcnt.trans (by omega))
        (hlast ▸ hacc)
    · have h56 : s.off.toNat ≠ 56 := fun h' =>
        h63 (BitVec.eq_of_toNat_eq (by rw [hoff, h']; rfl))
      refine inv_of_decMid { hrun with } ((if_neg h63).trans hp) hk ?_ (hcnt.trans ?_) hacc
      · change (s.off + 7).toNat ∈ _
        rw [hoff]; simp at ho ⊢; omega
      · change _ = (s.off + 7).toNat / 7
        omega
  · exact inv_takeException hrun.err h.cnt_le _

theorem inv_decLast {s : State} (h : Inv s) (hp : s.phase = .decLast) (a : SrcAnswer) :
    Inv (decLast a s) := by
  have hrun := running_of_inv h (by simp [hp])
  obtain ⟨-, hc, -⟩ := h.seq.last hp
  have hcnt : (s.cnt + 1).toNat ≤ 10 := by rw [toNat_succ_of_le (by omega)]; omega
  rcases decLast_cases s a with ⟨v, -, -, e⟩ | ⟨d, -, -, e⟩ | ⟨x, -, e⟩ <;> rw [e]
  · exact inv_deliver (s := setAcc v (takeByte 0x01 s)) hrun.err hcnt v
  · exact inv_takeException (s := takeByte d s) hrun.err hcnt _
  · exact inv_takeException hrun.err h.cnt_le _

/-- While bits remain after a group, the value has more than 7 of them, so fewer than nine bytes are
written (R93). -/
theorem inv_encEmit {s : State} (h : Inv s) (hp : s.phase = .encEmit) (a : SinkAnswer) :
    Inv (encEmit a s) := by
  have hrun := running_of_inv h (by simp [hp])
  obtain ⟨hc, hleft⟩ := h.emit_left hp
  have hcnt := toNat_succ_of_le hc
  rcases encEmit_cases s a with ⟨-, -, e⟩ | ⟨-, hmore, e⟩ | ⟨x, -, e⟩ <;> rw [e]
  · exact inv_of_idle rfl rfl (by simp [hrun.err]) (hcnt.trans_le (by omega))
      (fun _ => hcnt.trans_le (by omega))
  · have hbig : 2 ^ 7 ≤ s.rem.toNat := by
      by_contra hlt
      exact hmore ((afterGroup_eq_zero_iff _).2 (by omega))
    have hbits : 7 < 64 - 7 * s.cnt.toNat :=
      (Nat.pow_lt_pow_iff_right (by norm_num)).1 (hbig.trans_lt hleft)
    refine inv_of_encEmit { hrun with } hp (h.seq.enc_op hp) hmore
      (hcnt.trans_le (by omega)) ?_
    · simp only [hcnt, toNat_afterGroup]
      rw [Nat.div_lt_iff_lt_mul (by norm_num), ← pow_add]
      rwa [show 64 - 7 * (s.cnt.toNat + 1) + 7 = 64 - 7 * s.cnt.toNat by omega]
  · exact inv_takeException hrun.err h.cnt_le _

/-! ### Steps, runs and reachable states -/

theorem inv_unscheduled {s : State} (h : Inv s) : Inv (unscheduled s) := by
  unfold unscheduled
  split_ifs with hp
  · exact inv_lenStep h hp
  · exact h

theorem inv_move {m : Move} {s t : State} (h : Inv s) (hm : move m s = .next t) : Inv t := by
  rcases move_cases hm with ⟨a, -, -, rfl⟩ | ⟨w, i, -, -, rfl⟩ | ⟨w, -, -, rfl⟩ | ⟨w, -, rfl⟩ |
    ⟨a, w, -, -, -, -, rfl⟩ | ⟨-, hp, rfl⟩ | ⟨a, -, hp, rfl⟩ | ⟨a, -, hp, rfl⟩ | ⟨a, -, hp, rfl⟩ |
    ⟨a, -, hp, rfl⟩ | ⟨-, rfl⟩
  · exact inv_of_registers h ..
  · exact inv_issue h _ _
  · exact inv_issueIllegal h
  · exact inv_of_registers h ..
  · exact h
  · exact inv_lenStep h hp
  · exact inv_decFirst h hp a
  · exact inv_decMid h hp a
  · exact inv_decLast h hp a
  · exact inv_encEmit h hp a
  · exact inv_resetBlock s

/-- Settles O45, by what a step can do. -/
theorem stepKeepsTheInvariant : Obligations.StepKeepsTheInvariant := by
  unfold Obligations.StepKeepsTheInvariant Keeps
  intro s h t ht
  rcases step_cases ht with ⟨-, rfl⟩ | ⟨m, ms, -, hm⟩
  · exact inv_unscheduled h
  · exact inv_move (inv_of_registers h ..) hm

/-- Settles O44: a start is the reset of a block with its parameters and moves. -/
theorem invariantHoldsAtStart : Obligations.InvariantHoldsAtStart := by
  unfold Obligations.InvariantHoldsAtStart
  exact fun params moves => inv_resetBlock (start params moves)

theorem inv_run {k : Nat} {s t : State} (h : Inv s) (hr : Host.Core.run core k s = .next t) :
    Inv t := by
  induction k generalizing s with
  | zero => cases hr; exact h
  | succ k ih =>
    simp only [Host.Core.run] at hr
    split at hr
    next u hu => exact ih (stepKeepsTheInvariant s h u hu) hr
    next => cases hr
    next => cases hr

/-- Settles O46: the invariant holds at the start and every step keeps it. -/
theorem reachableStatesSatisfyTheSequencingClauses :
    Obligations.ReachableStatesSatisfyTheSequencingClauses := by
  unfold Obligations.ReachableStatesSatisfyTheSequencingClauses
  rintro s ⟨params, moves, k, hr⟩
  exact (inv_run (invariantHoldsAtStart params moves) hr).seq

end Sys2Proof.Proofs
end

section
/-! PROOFS. What no step depends on: the internal registers without a value (U18, R29 to R33), what a Host
access changes while a command runs (R20, R61), and the last command's report (R16). -/

namespace Sys2Proof.Proofs

open Sys2Proof.Machine Sys2Proof.Safety Sys2Proof.Statement

section DecodeAlike

variable {h h' : State → State} {s t : State}

/-- A delivery reads the parameters and NW, beside what its three ends read (R83). -/
theorem deliver_alike {v : Word} (hparams : s.params = t.params) (hnw : s.nw = t.nw)
    (hok : ∀ r, h (finishCounted (setResult r s)) = h' (finishCounted (setResult r t)))
    (hreject : h (takeException .narrowOvf s) = h' (takeException .narrowOvf t)) :
    h (deliver v s) = h' (deliver v t) := by
  unfold deliver
  rw [hparams, hnw]
  split_ifs
  · exact hok v
  · exact hreject
  · exact hok _

theorem decFirstByte_alike {b : Byte}
    (hdeliver : ∀ v, h (deliver v (takeByte b s)) = h' (deliver v (takeByte b t)))
    (hmore : ∀ v, h (setPhase .decMid (setOff 7 (setAcc v (takeByte b s)))) =
      h' (setPhase .decMid (setOff 7 (setAcc v (takeByte b t))))) :
    h (decFirstByte b s) = h' (decFirstByte b t) := by
  unfold decFirstByte
  split_ifs
  · exact hdeliver _
  · exact hmore _

theorem advanceOffset_alike (hoff : s.off = t.off) (hmore : ∀ o, h (setOff o s) = h' (setOff o t))
    (hlast : ∀ o, h (setPhase .decLast (setOff o s)) = h' (setPhase .decLast (setOff o t))) :
    h (advanceOffset s) = h' (advanceOffset t) := by
  unfold advanceOffset
  rw [hoff]
  split_ifs
  · exact hlast _
  · exact hmore _

theorem decMidByte_alike {c : Byte} (hgroup : addGroup c s = addGroup c t)
    (hdeliver : ∀ v, h (deliver v (setAcc v (takeByte c s))) = h' (deliver v (setAcc v (takeByte c t))))
    (hadvance : ∀ v, h (advanceOffset (setAcc v (takeByte c s))) =
      h' (advanceOffset (setAcc v (takeByte c t)))) :
    h (decMidByte c s) = h' (decMidByte c t) := by
  unfold decMidByte
  rw [hgroup]
  split_ifs
  · exact hdeliver _
  · exact hadvance _

theorem decLastByte_alike {d : Byte} (htop : addTopBit s = addTopBit t)
    (hdeliver : ∀ v, h (deliver v (setAcc v (takeByte d s))) = h' (deliver v (setAcc v (takeByte d t))))
    (hoverflow : h (takeException .overflow (takeByte d s)) =
      h' (takeException .overflow (takeByte d t))) :
    h (decLastByte d s) = h' (decLastByte d t) := by
  unfold decLastByte
  rw [htop]
  split_ifs
  · exact hdeliver _
  · exact hoverflow

end DecodeAlike

/-! ### The Host's accesses and a command in progress (R20, R61) -/

theorem deliver_withoutHost (v : Word) (s : State) :
    withoutHost (deliver v (withoutHost s)) = withoutHost (deliver v s) :=
  deliver_alike rfl rfl (fun _ => rfl) rfl

/-- OPERAND, CMD_LOST and the Host's record are read by the Host's moves alone. -/
theorem move_withoutHost (s : State) {m : Move} (hm : ∀ a, m ≠ .host a) :
    seen withoutHost (move m (withoutHost s)) = seen withoutHost (move m s) := by
  conv_lhs => rw [← renameMove_id m]
  cases m with
  | host a => exact absurd rfl (hm a)
  | datapath => exact lenMove_alike rfl rfl
  | source a =>
    exact sourceMove_alike rfl rfl rfl
      (fun b => decFirstByte_alike (fun v => deliver_withoutHost v (takeByte b s)) (fun _ => rfl))
      (fun b => decMidByte_alike rfl (fun v => deliver_withoutHost v (setAcc v (takeByte b s)))
        (fun _ => advanceOffset_alike rfl (fun _ => rfl) (fun _ => rfl)))
      (fun b => decLastByte_alike rfl (fun v => deliver_withoutHost v (setAcc v (takeByte b s))) rfl)
      rfl (fun _ => rfl)
  | sink a => exact sinkMove_alike rfl rfl rfl rfl (fun _ => rfl)
  | reset => rfl

/-- Every Host access that is made (R38): a read, a CMD write, an OPERAND write, or an ignored write. -/
theorem hostMove_cases {a : HostAccess} {s t : State} (h : hostMove a s = .next t) :
    (∃ o, t = hostRead o s) ∨
    (∃ w, a = .write 64 0x00 w ∧ ((∃ k n, t = issue k n s) ∨ t = issueIllegal s)) ∨
    (∃ w, a = .write 64 0x08 w ∧ t = setOperand w s) ∨ t = s := by
  rcases move_cases (m := .host a) h with ⟨o, -, -, e⟩ | ⟨w, i, ⟨⟩, -, e⟩ | ⟨w, ⟨⟩, -, e⟩ |
    ⟨w, ⟨⟩, e⟩ | ⟨_, _, -, -, -, -, e⟩ | ⟨⟨⟩, -⟩ | ⟨_, ⟨⟩, -⟩ | ⟨_, ⟨⟩, -⟩ | ⟨_, ⟨⟩, -⟩ |
    ⟨_, ⟨⟩, -⟩ | ⟨⟨⟩, -⟩
  · exact .inl ⟨o, e⟩
  · exact .inr (.inl ⟨w, rfl, .inl ⟨_, _, e⟩⟩)
  · exact .inr (.inl ⟨w, rfl, .inr e⟩)
  · exact .inr (.inr (.inl ⟨w, rfl, e⟩))
  · exact .inr (.inr (.inr e))

/-- Settles O53, by the cases of a Host access, and for the other moves by `move_withoutHost`. -/
theorem hostCannotDisturbACommand : Obligations.HostCannotDisturbACommand := by
  unfold Obligations.HostCannotDisturbACommand
  refine ⟨fun s t a hp h => ?_, fun s m hm => move_withoutHost s hm⟩
  rcases hostMove_cases h with ⟨o, rfl⟩ | ⟨w, -, ⟨k, n, rfl⟩ | rfl⟩ | ⟨w, -, rfl⟩ | rfl
  · rfl
  · rw [issue_busy hp]; rfl
  · rw [issueIllegal_busy hp]; rfl
  · rfl
  · rfl

/-! ### The internal registers without a value (U18, R29 to R33)

In each phase the registers that its rule reads are live; whatever a rule writes, and whatever a command's
end leaves behind, the dead registers stay dead. -/

theorem observable_observable (s : State) : observable (observable s) = observable s := by
  simp only [observable, live]
  split_ifs <;> rfl

theorem observable_of_eq {a b : State} (h : a = observable b) : observable a = observable b := by
  rw [h, observable_observable]

theorem observable_lenExec {s : State} (hp : s.phase = .lenExec) :
    observable s = { s with opk := .len, nw := false, acc := 0, off := 0, cnt := 0 } := by
  simp [observable, live, decoding, hp]

theorem observable_encEmit {s : State} (hp : s.phase = .encEmit) :
    observable s = { s with opk := .len, nw := false, acc := 0, off := 0 } := by
  simp [observable, live, decoding, hp]

theorem observable_decFirst {s : State} (hp : s.phase = .decFirst) :
    observable s = { s with rem := 0, acc := 0, off := 0 } := by
  simp [observable, live, decoding, hp]

theorem observable_decMid {s : State} (hp : s.phase = .decMid) :
    observable s = { s with opk := .len, rem := 0 } := by
  simp [observable, live, decoding, hp]

theorem observable_decLast {s : State} (hp : s.phase = .decLast) :
    observable s = { s with opk := .len, rem := 0, off := 0 } := by
  simp [observable, live, decoding, hp]

/-- A delivery ends in IDLE and reads none of OPK, REM, ACC and OFF. -/
theorem deliver_observable (v : Word) (s : State) (k : Op) (r a : Word) (o : Offset) :
    observable (deliver v { s with opk := k, rem := r, acc := a, off := o }) =
      observable (deliver v s) :=
  deliver_alike rfl rfl (fun _ => rfl) rfl

theorem issue_observable (k : Op) (n : Bool) (s : State) :
    observable (issue k n (observable s)) = observable (issue k n s) := by
  by_cases hp : s.phase = .idle
  · rw [issue_idle hp, issue_idle (by exact hp)]; cases k <;> rfl
  · rw [issue_busy hp, issue_busy (by exact hp)]
    exact observable_of_eq (b := loseCommand s) rfl

theorem issueIllegal_observable (s : State) :
    observable (issueIllegal (observable s)) = observable (issueIllegal s) :=
  issueIllegal_alike rfl rfl (observable_of_eq (b := loseCommand s) rfl)

theorem lenStep_observable {s : State} (hp : s.phase = .lenExec) :
    observable (lenStep (observable s)) = observable (lenStep s) := by
  rw [observable_lenExec hp]; rfl

theorem decFirst_observable {s : State} (hp : s.phase = .decFirst) (a : SrcAnswer) :
    observable (decFirst a (observable s)) = observable (decFirst a s) := by
  rw [observable_decFirst hp]
  unfold decFirst
  rw [show requestKind { s with rem := 0, acc := 0, off := 0 } = requestKind s from rfl]
  cases srcRead (requestKind s) a with
  | byte b =>
    exact decFirstByte_alike (fun v => deliver_observable v (takeByte b s) s.opk 0 0 0) (fun _ => rfl)
  | empty => rfl
  | err e => rfl

theorem decMid_observable {s : State} (hp : s.phase = .decMid) (a : SrcAnswer) :
    observable (decMid a (observable s)) = observable (decMid a s) := by
  have hmore : ∀ c v o, observable (setOff o (setAcc v (takeByte c (observable s)))) =
      observable (setOff o (setAcc v (takeByte c s))) := by
    intro c v o
    rw [observable_decMid hp]
    simp [observable, live, decoding, hp]
  rw [observable_decMid hp] at hmore ⊢
  unfold decMid
  cases exactRead a with
  | ok c =>
    exact decMidByte_alike rfl
      (fun v => deliver_observable v (setAcc v (takeByte c s)) .len 0 v s.off)
      (fun v => advanceOffset_alike rfl (hmore c v) (fun _ => rfl))
  | error e => rfl

theorem decLast_observable {s : State} (hp : s.phase = .decLast) (a : SrcAnswer) :
    observable (decLast a (observable s)) = observable (decLast a s) := by
  rw [observable_decLast hp]
  unfold decLast
  cases exactRead a with
  | ok d =>
    exact decLastByte_alike rfl
      (fun v => deliver_observable v (setAcc v (takeByte d s)) .len 0 v 0) rfl
  | error e => rfl

theorem encEmit_observable {s : State} (hp : s.phase = .encEmit) (a : SinkAnswer) :
    observable (encEmit a (observable s)) = observable (encEmit a s) := by
  have hmore : observable (emitByte (observable s)) = observable (emitByte s) := by
    rw [observable_encEmit hp]
    simp [observable, live, decoding, hp, emitByte, setRem, putByte]
  rw [observable_encEmit hp] at hmore ⊢
  cases a with
  | ok =>
    unfold encEmit
    simp only
    split_ifs
    · rfl
    · exact hmore
  | err e => rfl

theorem sourceMove_observable (a : SrcAnswer) (s : State) :
    seen observable (sourceMove a (observable s)) = seen observable (sourceMove a s) := by
  cases hp : s.phase with
  | decFirst =>
    rw [sourceMove_first hp, sourceMove_first (s := observable s) hp]
    exact congrArg Host.Outcome.next (decFirst_observable hp a)
  | decMid =>
    rw [sourceMove_mid hp, sourceMove_mid (s := observable s) hp]
    exact congrArg Host.Outcome.next (decMid_observable hp a)
  | decLast =>
    rw [sourceMove_last hp, sourceMove_last (s := observable s) hp]
    exact congrArg Host.Outcome.next (decLast_observable hp a)
  | idle => simp only [sourceMove, hp, show (observable s).phase = .idle from hp]
  | lenExec => simp only [sourceMove, hp, show (observable s).phase = .lenExec from hp]
  | encEmit => simp only [sourceMove, hp, show (observable s).phase = .encEmit from hp]

theorem move_observable (m : Move) (s : State) :
    seen observable (move m (observable s)) = seen observable (move m s) := by
  cases m with
  | host a =>
    exact hostMove_alike (observable_observable s)
      (fun o => observable_of_eq (b := hostRead o s) rfl)
      (fun w => observable_of_eq (b := setOperand w s) rfl)
      (fun k n => issue_observable k n s) (issueIllegal_observable s)
  | datapath =>
    change seen observable (lenMove _) = seen observable (lenMove s)
    by_cases hp : s.phase = .lenExec
    · exact lenMove_alike rfl (lenStep_observable hp)
    · rw [lenMove_disabled hp, lenMove_disabled (s := observable s) hp]
  | source a => exact sourceMove_observable a s
  | sink a =>
    change seen observable (sinkMove a _) = seen observable (sinkMove a s)
    by_cases hp : s.phase = .encEmit
    · rw [sinkMove_enabled hp, sinkMove_enabled (s := observable s) hp]
      exact congrArg Host.Outcome.next (encEmit_observable hp a)
    · rw [sinkMove_disabled hp, sinkMove_disabled (s := observable s) hp]
  | reset => rfl

theorem unscheduled_observable (s : State) :
    observable (unscheduled (observable s)) = observable (unscheduled s) := by
  by_cases hp : s.phase = .lenExec
  · exact unscheduled_alike rfl (observable_observable s) (lenStep_observable hp)
  · rw [unscheduled, unscheduled, if_neg hp, if_neg (by exact hp), observable_observable]

theorem step_observable (s : State) :
    seen observable (step (observable s)) = seen observable (step s) := by
  cases hs : s.schedule with
  | nil =>
    rw [step_of_unscheduled hs, step_of_unscheduled (s := observable s) hs]
    exact congrArg Host.Outcome.next (unscheduled_observable s)
  | cons m ms =>
    rw [step_of_schedule hs, step_of_schedule (s := observable s) hs]
    exact move_observable m (setSchedule ms s)

/-- Settles O56: a step does the same from a state and from its observable part. -/
theorem deadRegistersAreNeverObserved : Obligations.DeadRegistersAreNeverObserved := by
  unfold Obligations.DeadRegistersAreNeverObserved
  intro s t hst
  rw [← step_observable s, hst, step_observable t]

/-! ### The last command's report (R16) -/

/-- Settles O54: the accept step overwrites the report but for RESULT, which it carries over. -/
theorem lastReportIsNoInput : Obligations.LastReportIsNoInput := by
  unfold Obligations.LastReportIsNoInput
  intro s i c n e l r hp
  rw [exec_eq_issue, exec_eq_issue, issue_idle hp, issue_idle (by exact hp)]
  cases kindOf i <;> rfl

end Sys2Proof.Proofs
end

section
/-! PROOFS. Which steps change the registers that a Host sees (R20 to R22, R34), the STATUS word it reads
(R39), the values after reset (R36), and the two commands that end by themselves (R74, R75). -/

namespace Sys2Proof.Proofs

open Sys2Proof.Machine Sys2Proof.Safety Sys2Proof.Statement

/-! ### What the issue of a command leaves alone -/

section Issue

variable (s : State) (k : Op) (n : Bool)

theorem issue_kept : (issue k n s).params = s.params ∧ (issue k n s).operand = s.operand ∧
    (issue k n s).result = s.result := by
  by_cases hp : s.phase = .idle
  · rw [issue_idle hp]; cases k <;> exact ⟨rfl, rfl, rfl⟩
  · rw [issue_busy hp]; exact ⟨rfl, rfl, rfl⟩

theorem issueIllegal_kept : (issueIllegal s).params = s.params ∧
    (issueIllegal s).operand = s.operand ∧ (issueIllegal s).result = s.result := by
  by_cases hp : s.phase = .idle
  · rw [issueIllegal_idle hp]; exact ⟨rfl, rfl, rfl⟩
  · rw [issueIllegal_busy hp]; exact ⟨rfl, rfl, rfl⟩

/-- A CMD write sets CMD_LOST while a command is in progress and clears it otherwise (R60 to R62). -/
theorem issue_cmdLost_iff : (issue k n s).cmdLost = true ↔ s.phase ≠ .idle := by
  by_cases hp : s.phase = .idle
  · rw [issue_idle hp]; cases k <;> simp [accept, enterCommand, latchCommand, clearReport, hp]
  · rw [issue_busy hp]; simp [hp]

theorem issueIllegal_cmdLost_iff : (issueIllegal s).cmdLost = true ↔ s.phase ≠ .idle := by
  by_cases hp : s.phase = .idle
  · rw [issueIllegal_idle hp]; simp [hp]
  · rw [issueIllegal_busy hp]; simp [hp]

end Issue

/-! ### OPERAND, CMD_LOST and the parameters (R20, R22, R34) -/

theorem hostSideKept_lenStep (s : State) : HostSideKept s (lenStep s) := ⟨rfl, rfl, rfl, rfl, rfl⟩

/-- A move that is neither a Host access nor a reset leaves the Host's side of the state alone. -/
theorem move_hostSide_cases {m : Move} {s t : State} (h : move m s = .next t) :
    (∃ a, m = .host a) ∨ m = .reset ∨ HostSideKept s t := by
  rcases move_cases h with ⟨a, hm, -, -⟩ | ⟨w, i, hm, -, -⟩ | ⟨w, hm, -, -⟩ | ⟨w, hm, -⟩ |
    ⟨a, w, hm, -, -, -, -⟩ | ⟨-, -, rfl⟩ | ⟨a, -, -, rfl⟩ | ⟨a, -, -, rfl⟩ | ⟨a, -, -, rfl⟩ |
    ⟨a, -, -, rfl⟩ | ⟨hm, -⟩
  iterate 5 exact .inl ⟨_, hm⟩
  · exact .inr (.inr (hostSideKept_lenStep s))
  · exact .inr (.inr (hostSideKept_decFirst s a))
  · exact .inr (.inr (hostSideKept_decMid s a))
  · exact .inr (.inr (hostSideKept_decLast s a))
  · exact .inr (.inr (hostSideKept_encEmit s a))
  · exact .inr (.inl hm)

/-- What a step can do to OPERAND, CMD_LOST and the parameters, and whose step it then is. -/
theorem step_hostSide_cases {s t : State} (h : step s = .next t) :
    (∃ w, s.schedule.head? = some (.host (.write 64 0x00 w)) ∧ t.params = s.params ∧
      t.operand = s.operand ∧ (t.cmdLost = true ↔ s.phase ≠ .idle)) ∨
    (∃ w, s.schedule.head? = some (.host (.write 64 0x08 w)) ∧ t.params = s.params ∧
      t.operand = w ∧ t.cmdLost = s.cmdLost) ∨
    (s.schedule.head? = some .reset ∧ t.params = s.params ∧ t.cmdLost = false) ∨
    (t.params = s.params ∧ t.operand = s.operand ∧ t.cmdLost = s.cmdLost) := by
  rcases step_cases h with ⟨-, rfl⟩ | ⟨m, ms, hs, hm⟩
  · unfold unscheduled
    split_ifs <;> exact .inr (.inr (.inr ⟨rfl, rfl, rfl⟩))
  rw [hs]
  rcases move_hostSide_cases hm with ⟨a, rfl⟩ | rfl | hkept
  · rcases hostMove_cases hm with ⟨o, rfl⟩ | ⟨w, rfl, ⟨k, n, rfl⟩ | rfl⟩ | ⟨w, rfl, rfl⟩ | rfl
    · exact .inr (.inr (.inr ⟨rfl, rfl, rfl⟩))
    · obtain ⟨hparams, hoperand, -⟩ := issue_kept (setSchedule ms s) k n
      exact .inl ⟨w, rfl, hparams, hoperand, issue_cmdLost_iff _ k n⟩
    · obtain ⟨hparams, hoperand, -⟩ := issueIllegal_kept (setSchedule ms s)
      exact .inl ⟨w, rfl, hparams, hoperand, issueIllegal_cmdLost_iff _⟩
    · exact .inr (.inl ⟨w, rfl, rfl, rfl, rfl⟩)
    · exact .inr (.inr (.inr ⟨rfl, rfl, rfl⟩))
  · cases hm
    exact .inr (.inr (.inl ⟨rfl, rfl, rfl⟩))
  · exact .inr (.inr (.inr ⟨hkept.params, hkept.operand, hkept.cmdLost⟩))

/-- Settles O49, by `step_hostSide_cases`. -/
theorem operandChangesOnlyByHostWrite : Obligations.OperandChangesOnlyByHostWrite := by
  unfold Obligations.OperandChangesOnlyByHostWrite
  intro s t h hne
  rcases step_hostSide_cases h with ⟨w, -, -, hsame, -⟩ | ⟨w, hs, -, rfl, -⟩ | ⟨hs, -, -⟩ |
    ⟨-, hsame, -⟩
  · exact absurd hsame hne
  · exact .inl hs
  · exact .inr hs
  · exact absurd hsame hne

/-- Settles O50, by `step_hostSide_cases`. -/
theorem cmdLostChangesOnlyByCmdWrites : Obligations.CmdLostChangesOnlyByCmdWrites := by
  unfold Obligations.CmdLostChangesOnlyByCmdWrites
  intro s t h hne
  rcases step_hostSide_cases h with ⟨w, hs, -, -, hlost⟩ | ⟨w, -, -, -, hsame⟩ | ⟨hs, -, hlost⟩ |
    ⟨-, -, hsame⟩
  · exact .inl ⟨w, hs, hlost⟩
  · exact absurd hsame hne
  · exact .inr ⟨hs, hlost⟩
  · exact absurd hsame hne

/-- Settles O51, by `step_hostSide_cases`. -/
theorem noStepChangesTheParameters : Obligations.NoStepChangesTheParameters := by
  unfold Obligations.NoStepChangesTheParameters
  intro s t h
  rcases step_hostSide_cases h with ⟨-, -, hsame, -, -⟩ | ⟨-, -, hsame, -, -⟩ | ⟨-, hsame, -⟩ |
    ⟨hsame, -, -⟩ <;> exact hsame

/-! ### RESULT (R21, R102) -/

/-- RESULT is written only together with an OK completion. -/
def ResultOnlyWithOk (s t : State) : Prop :=
  t.result ≠ s.result → t.code = .ok ∧ t.busy = false

theorem resultOnlyWithOk_of_eq {s t : State} (h : t.result = s.result) : ResultOnlyWithOk s t :=
  fun hne => absurd h hne

theorem resultOnlyWithOk_deliver (v : Word) (s : State) : ResultOnlyWithOk s (deliver v s) := by
  obtain ⟨r, n, d, c, e, ⟨rfl, -⟩ | ⟨-, rfl⟩⟩ := deliver_spec s v <;> rw [e]
  · exact fun _ => ⟨rfl, rfl⟩
  · exact resultOnlyWithOk_of_eq rfl

theorem resultOnlyWithOk_decFirst (a : SrcAnswer) (s : State) :
    ResultOnlyWithOk s (decFirst a s) := by
  rcases decFirst_cases s a with ⟨b, -, -, e⟩ | ⟨b, -, -, e⟩ | ⟨-, -, e⟩ | ⟨x, -, e⟩ <;> rw [e]
  · exact resultOnlyWithOk_deliver _ (takeByte b s)
  · exact resultOnlyWithOk_of_eq rfl
  · exact resultOnlyWithOk_of_eq rfl
  · exact resultOnlyWithOk_of_eq (by simp)

theorem resultOnlyWithOk_decMid (a : SrcAnswer) (s : State) : ResultOnlyWithOk s (decMid a s) := by
  rcases decMid_cases s a with ⟨c, -, -, e⟩ | ⟨c, -, -, e⟩ | ⟨x, -, e⟩ <;> rw [e]
  · exact resultOnlyWithOk_deliver _ (setAcc (addGroup c s) (takeByte c s))
  · exact resultOnlyWithOk_of_eq rfl
  · exact resultOnlyWithOk_of_eq (by simp)

theorem resultOnlyWithOk_decLast (a : SrcAnswer) (s : State) : ResultOnlyWithOk s (decLast a s) := by
  rcases decLast_cases s a with ⟨v, -, -, e⟩ | ⟨d, -, -, e⟩ | ⟨x, -, e⟩ <;> rw [e]
  · exact resultOnlyWithOk_deliver _ (setAcc v (takeByte 0x01 s))
  · exact resultOnlyWithOk_of_eq (by simp)
  · exact resultOnlyWithOk_of_eq (by simp)

theorem encEmit_result (a : SinkAnswer) (s : State) : (encEmit a s).result = s.result := by
  rcases encEmit_cases s a with ⟨-, -, e⟩ | ⟨-, -, e⟩ | ⟨x, -, e⟩ <;> rw [e]
  simp

/-- A move leaves RESULT alone, unless it is a reset or the step of a LEN or a decode. -/
theorem move_result_cases {m : Move} {s t : State} (h : move m s = .next t) :
    t.result = s.result ∨ m = .reset ∨
      ((s.phase = .lenExec ∨ decoding s.phase = true) ∧ ResultOnlyWithOk s t) := by
  rcases move_cases h with ⟨a, -, -, rfl⟩ | ⟨w, i, -, -, rfl⟩ | ⟨w, -, -, rfl⟩ | ⟨w, -, rfl⟩ |
    ⟨a, w, -, -, -, -, rfl⟩ | ⟨-, hp, rfl⟩ | ⟨a, -, hp, rfl⟩ | ⟨a, -, hp, rfl⟩ | ⟨a, -, hp, rfl⟩ |
    ⟨a, -, hp, rfl⟩ | ⟨hm, -⟩
  · exact .inl rfl
  · obtain ⟨-, -, hsame⟩ := issue_kept s (kindOf i) (nativeOf i)
    exact .inl hsame
  · obtain ⟨-, -, hsame⟩ := issueIllegal_kept s
    exact .inl hsame
  · exact .inl rfl
  · exact .inl rfl
  · exact .inr (.inr ⟨.inl hp, fun _ => ⟨rfl, rfl⟩⟩)
  · exact .inr (.inr ⟨.inr (by rw [hp]; rfl), resultOnlyWithOk_decFirst a s⟩)
  · exact .inr (.inr ⟨.inr (by rw [hp]; rfl), resultOnlyWithOk_decMid a s⟩)
  · exact .inr (.inr ⟨.inr (by rw [hp]; rfl), resultOnlyWithOk_decLast a s⟩)
  · exact .inl (encEmit_result a s)
  · exact .inr (.inl hm)

/-- Settles O47, by `move_result_cases`. -/
theorem resultChangesOnlyAtAnOkCompletion : Obligations.ResultChangesOnlyAtAnOkCompletion := by
  unfold Obligations.ResultChangesOnlyAtAnOkCompletion
  intro s t h hne
  rcases step_cases h with ⟨-, rfl⟩ | ⟨m, ms, hs, hm⟩
  · unfold unscheduled at hne ⊢
    split_ifs at hne ⊢ with hp
    · exact .inl ⟨rfl, rfl, .inl hp⟩
    · exact absurd rfl hne
  · rcases move_result_cases hm with hsame | rfl | ⟨hp, hok⟩
    · exact absurd hsame hne
    · exact .inr (by rw [hs]; rfl)
    · obtain ⟨hcode, hbusy⟩ := hok hne
      exact .inl ⟨hcode, hbusy, hp⟩

/-! ### The STATUS word (R22, R23, R39) -/

theorem codeNumber_lt (c : Code) : codeNumber c < 16 := by cases c <;> decide

theorem toNat_toBits (c : Code) : c.toBits.toNat = codeNumber c := by cases c <;> rfl

theorem bit_lt (b : Bool) : bit b < 2 := by cases b <;> decide

theorem toNat_flagWord (b : Bool) : (flagWord b).toNat = bit b := by cases b <;> rfl

/-- The four fields of STATUS do not overlap, so joining them is adding them. -/
theorem toNat_statusWord (s : State) : (statusWord s).toNat = statusNumber s := by
  have hcount := s.count.isLt
  have hcode := codeNumber_lt s.code
  have hlost := bit_lt s.cmdLost
  have hbusy := bit_lt s.busy
  have hcode' := Nat.two_pow_add_eq_or_of_lt (i := 8)
    (show codeNumber s.code * 2 ^ 4 < 2 ^ 8 by omega) s.count.toNat
  have hlost' := Nat.two_pow_add_eq_or_of_lt (i := 4) (show bit s.cmdLost * 2 ^ 1 < 2 ^ 4 by omega)
    (s.count.toNat * 2 ^ 4 + codeNumber s.code)
  have hbusy' := Nat.two_pow_add_eq_or_of_lt (i := 1) (show bit s.busy < 2 ^ 1 by omega)
    (s.count.toNat * 2 ^ 7 + codeNumber s.code * 2 ^ 3 + bit s.cmdLost)
  calc (statusWord s).toNat
      = s.count.toNat * 2 ^ 8 ||| codeNumber s.code * 2 ^ 4 ||| bit s.cmdLost * 2 ^ 1 ||| bit s.busy := by
        simp only [statusWord, BitVec.toNat_or, BitVec.toNat_shiftLeft, BitVec.toNat_setWidth,
          toNat_toBits, toNat_flagWord, Nat.shiftLeft_eq]
        congr <;> omega
    _ = s.count.toNat * 2 ^ 8 + codeNumber s.code * 2 ^ 4 ||| bit s.cmdLost * 2 ^ 1 ||| bit s.busy := by
        rw [mul_comm s.count.toNat, hcode']
    _ = s.count.toNat * 2 ^ 8 + codeNumber s.code * 2 ^ 4 + bit s.cmdLost * 2 ^ 1 ||| bit s.busy := by
        rw [show s.count.toNat * 2 ^ 8 + codeNumber s.code * 2 ^ 4 =
          2 ^ 4 * (s.count.toNat * 2 ^ 4 + codeNumber s.code) by ring, hlost']
    _ = statusNumber s := by
        rw [statusNumber, show s.count.toNat * 2 ^ 8 + codeNumber s.code * 2 ^ 4 + bit s.cmdLost * 2 ^ 1 =
          2 ^ 1 * (s.count.toNat * 2 ^ 7 + codeNumber s.code * 2 ^ 3 + bit s.cmdLost) by ring, ← hbusy']
        ring

theorem getLsbD_eq_of_bit {w : Word} {i : Nat} {b : Bool} (h : w.toNat / 2 ^ i % 2 = bit b) :
    w.getLsbD i = b := by
  rw [BitVec.getLsbD, Nat.testBit_eq_decide_div_mod_eq, h]
  cases b <;> rfl

/-- Settles O13: the fields are read off the STATUS word's number. -/
theorem statusWordFields : Obligations.StatusWordFields := by
  unfold Obligations.StatusWordFields
  intro s
  rw [show readValue 0x18 s = statusWord s from rfl]
  have hcount := s.count.isLt
  have hcode := codeNumber_lt s.code
  have hlost := bit_lt s.cmdLost
  have hbusy := bit_lt s.busy
  have hnum : (statusWord s).toNat = s.count.toNat * 2 ^ 8 + codeNumber s.code * 2 ^ 4 +
    bit s.cmdLost * 2 + bit s.busy := toNat_statusWord s
  refine ⟨toNat_statusWord s, getLsbD_eq_of_bit (by omega), getLsbD_eq_of_bit (by omega),
    BitVec.eq_of_toNat_eq ?_, ?_, BitVec.eq_of_toNat_eq ?_, BitVec.eq_of_toNat_eq ?_⟩ <;>
    rw [BitVec.extractLsb'_toNat, Nat.shiftRight_eq_div_pow, hnum]
  · change _ = 0; omega
  · omega
  · omega
  · change _ = 0; omega

/-! ### The values after reset (R36) -/

/-- Settles O43: every register that a read shows is 0, and so is every other offset. -/
theorem resetStateValues : Obligations.ResetStateValues := by
  unfold Obligations.ResetStateValues
  refine ⟨rfl, rfl, rfl, rfl, rfl, rfl, rfl, rfl, fun a _ => ?_⟩
  unfold readValue
  split_ifs <;> rfl

/-! ### LEN runs to its end (R74, R75) -/

/-- An accepted LEN, a Host read, an OPERAND write and the Datapath's step. -/
theorem run_len (s : State) (n : Bool) {a : Nat} (w : Word) (rest : List Move) (ha : a % 8 = 0) :
    Host.Core.run core 3
        { accept .len n s with
          schedule := .host (.read 64 a) :: .host (.write 64 0x08 w) :: .datapath :: rest } =
      .next (setSchedule rest (lenStep (setOperand w (hostRead a (accept .len n s))))) := by
  have hmoves : moveAll [.host (.read 64 a), .host (.write 64 0x08 w), .datapath] (accept .len n s) =
      .next (lenStep (setOperand w (hostRead a (accept .len n s)))) := by
    simp only [moveAll, move, hostMove_read _ ha]
    rfl
  exact (run_schedule _ rest (accept .len n s)).trans (congrArg (onNext (setSchedule rest)) hmoves)

theorem toNat_ofNat_len7 (v : Word) : (BitVec.ofNat 64 (len7 v)).toNat = len7 v := by
  have := len7_le_ten v
  exact Nat.mod_eq_of_lt (by omega)

theorem nativeTrunc_eq_lowBits (w : Config.NativeWidth) (v : Word) : nativeTrunc w v = lowBits w v :=
  BitVec.eq_of_toNat_eq (by
    rw [toNat_nativeTrunc, lowBits, BitVec.toNat_ofNat,
      Nat.mod_eq_of_lt ((Nat.mod_le _ _).trans_lt v.isLt)])

/-- Settles O16, by `run_len`: the length is that of REM, the operand latched at accept. -/
theorem lenCommandsCompleteWithTheLength : Obligations.LenCommandsCompleteWithTheLength := by
  unfold Obligations.LenCommandsCompleteWithTheLength
  intro s a w rest hp ha
  have hexec : ∀ i, kindOf i = .len → exec i s = .next (accept .len (nativeOf i) s) := fun i hi => by
    rw [exec_eq_issue, hi, issue_idle hp]
  refine ⟨⟨_, _, hexec .len64 rfl, run_len s false w rest ha, ?_⟩,
    ⟨_, _, hexec .lenN rfl, run_len s true w rest ha, ?_⟩⟩
  · exact ⟨toNat_ofNat_len7 s.operand, rfl, rfl, rfl, rfl, rfl, rfl, rfl, rfl, rfl, rfl, rfl⟩
  · rw [← nativeTrunc_eq_lowBits]
    exact ⟨toNat_ofNat_len7 _, rfl, rfl, rfl, rfl, rfl, rfl, rfl, rfl, rfl, rfl, rfl⟩

end Sys2Proof.Proofs
end

section
/-! PROOFS. The agents at the block's boundary (20_memory.md): the Host's accesses and the command words they
carry (R38 to R40), the Source's and the Sink's answers and the streams they move (R41 to R46), the reference
Source and Sink (R47), and how long a report stays (R106). -/

namespace Sys2Proof.Proofs

open Sys2Proof.Machine Sys2Proof.Safety Sys2Proof.Statement

/-! ### The Host's accesses (R38 to R40) -/

section HostPort

variable (s : State)

theorem hostWrite_cmd (w : Word) : hostWrite 0x00 w s = writeCmd w s := if_pos rfl

theorem hostWrite_operand (w : Word) : hostWrite 0x08 w s = .next (setOperand w s) := rfl

theorem hostWrite_ignored {a : Nat} (h0 : a ≠ 0x00) (h8 : a ≠ 0x08) (w : Word) :
    hostWrite a w s = .next s := by
  rw [hostWrite, if_neg h0, if_neg h8]

theorem hostWrite_next (a : Nat) (w : Word) : ∃ t, hostWrite a w s = .next t := by
  by_cases h0 : a = 0x00
  · rw [h0, hostWrite_cmd]
    rcases writeCmd_cases s w with ⟨i, -, h⟩ | ⟨-, h⟩ <;> exact ⟨_, h⟩
  by_cases h8 : a = 0x08
  · rw [h8, hostWrite_operand]; exact ⟨_, rfl⟩
  · exact ⟨s, hostWrite_ignored s h0 h8 w⟩

variable {s} {rest : List Move}

theorem step_read {a : Nat} (ha : a % 8 = 0) (hs : s.schedule = .host (.read 64 a) :: rest) :
    step s = .next (hostRead a (setSchedule rest s)) :=
  (step_of_schedule hs).trans (hostMove_read _ ha)

theorem step_write {a : Nat} {w : Word} (ha : a % 8 = 0)
    (hs : s.schedule = .host (.write 64 a w) :: rest) :
    step s = hostWrite a w (setSchedule rest s) :=
  (step_of_schedule hs).trans (hostMove_write _ ha w)

theorem step_refused {a : HostAccess} (ha : ¬ a.wellFormed = true) (hs : s.schedule = .host a :: rest) :
    step s = .refused .hostAccess :=
  (step_of_schedule hs).trans (hostMove_refused _ ha)

end HostPort

/-- Settles O12: the accesses that run are the well-formed ones, and from 0x28 on a read only adds to the
Host's record and a write is ignored. -/
theorem onlyWholeAlignedAccessesRun : Obligations.OnlyWholeAlignedAccessesRun := by
  unfold Obligations.OnlyWholeAlignedAccessesRun
  rintro s width a w rest acc (rfl | rfl) hs
  · refine ⟨fun hbad => step_refused (by rw [wellFormed_read_iff]; omega) hs, ?_, ?_⟩
    · rintro rfl ha
      exact ⟨_, step_read ha hs⟩
    · rintro rfl ha -
      exact ⟨_, step_read ha hs, rfl⟩
  · refine ⟨fun hbad => step_refused (by rw [wellFormed_write_iff]; omega) hs, ?_, ?_⟩
    · rintro rfl ha
      rw [step_write ha hs]
      exact hostWrite_next _ a w
    · rintro rfl ha h28
      rw [step_write ha hs, hostWrite_ignored _ (by omega) (by omega)]
      exact ⟨_, rfl, rfl⟩

theorem statusWord_eq_ofNat (s : State) : statusWord s = BitVec.ofNat 64 (statusNumber s) := by
  rw [← toNat_statusWord, BitVec.ofNat_toNat, BitVec.setWidth_eq]

/-- Settles O10: a read logs `readValue`, whose STATUS word is `statusNumber`. -/
theorem hostReadReturnsTheRegister : Obligations.HostReadReturnsTheRegister := by
  unfold Obligations.HostReadReturnsTheRegister
  intro s a rest ha hs
  rw [step_read ha hs, ← statusWord_eq_ofNat]
  rfl

/-- An illegal word in IDLE: the report becomes ILLEGAL_CMD's (R62). -/
theorem issueIllegal_report {s : State} (hp : s.phase = .idle) :
    issueIllegal s = { s with cmdLost := false, err := none, count := 0, code := .illegalCmd,
                              busy := false } := by
  rw [issueIllegal_idle hp]
  cases s
  cases hp
  rfl

/-- Settles O11: by the offset, and at CMD by whether the word is legal. -/
theorem hostWriteReachesOnlyCmdAndOperand : Obligations.HostWriteReachesOnlyCmdAndOperand := by
  unfold Obligations.HostWriteReachesOnlyCmdAndOperand
  intro s a w rest ha hs
  rw [step_write ha hs]
  by_cases h0 : a = 0x00
  · rw [if_pos h0, h0, hostWrite_cmd]
    cases hd : decode w with
    | some i => exact writeCmd_legal _ hd
    | none =>
      rw [writeCmd_illegal _ hd]
      by_cases hp : s.phase = .idle
      · rw [issueIllegal_report (by exact hp)]
        exact (if_pos hp).symm
      · rw [issueIllegal_busy (by exact hp)]
        exact (if_neg hp).symm
  rw [if_neg h0]
  by_cases h8 : a = 0x08
  · rw [if_pos h8, h8, hostWrite_operand]; rfl
  · rw [if_neg h8, hostWrite_ignored _ h0 h8]; rfl

/-! ### Command words (R55, R57) -/

theorem issueMove_toNat (w : Word) : issueMove 64 w.toNat = .host (.write 64 0x00 w) := by
  rw [issueMove, Nat.mod_eq_of_lt w.isLt, BitVec.ofNat_toNat, BitVec.setWidth_eq]

theorem tableWord_toNat (w : Word) : tableWord 64 w.toNat = some w := by
  rw [tableWord, Nat.mod_eq_of_lt w.isLt, if_pos w.isLt, BitVec.ofNat_toNat, BitVec.setWidth_eq]

theorem step_cmd {s : State} {w : Word} {i : Instr} {rest : List Move} (hd : decode w = some i)
    (hs : s.schedule = .host (.write 64 0x00 w) :: rest) : step s = exec i (setSchedule rest s) := by
  rw [step_write rfl hs, hostWrite_cmd, writeCmd_legal _ hd]

/-- Settles O5: `withFetchWord` puts the word's CMD write first, and taking it off again gives `s`. -/
theorem stepRunsTheDecodedCommand : Obligations.StepRunsTheDecodedCommand := by
  unfold Obligations.StepRunsTheDecodedCommand
  intro s w i hd
  have hfetch : (s.withFetchWord 64 w.toNat).schedule = .host (.write 64 0x00 w) :: s.schedule :=
    congrArg (· :: s.schedule) (issueMove_toNat w)
  refine ⟨fun rest hs => step_cmd hd hs, step_cmd hd hfetch, ?_⟩
  rw [decodeTableWord, tableWord_toNat]
  exact hd

/-! ### The report in IDLE (R53, R106) -/

/-- In IDLE only the Host and the reset input can move, and only a CMD write or a reset touches more than
OPERAND and the Host's record. -/
theorem move_idle_cases {m : Move} {s t : State} (hp : s.phase = .idle) (h : move m s = .next t) :
    (∃ w, m = .host (.write 64 0x00 w)) ∨ m = .reset ∨
      (∃ a, t = hostRead a s) ∨ (∃ w, t = setOperand w s) ∨ t = s := by
  cases m with
  | host a =>
    rcases hostMove_cases h with ⟨o, e⟩ | ⟨w, rfl, -⟩ | ⟨w, -, e⟩ | e
    · exact .inr (.inr (.inl ⟨o, e⟩))
    · exact .inl ⟨w, rfl⟩
    · exact .inr (.inr (.inr (.inl ⟨w, e⟩)))
    · exact .inr (.inr (.inr (.inr e)))
  | datapath => cases (lenMove_disabled (by simp [hp])).symm.trans h
  | source a =>
    cases (sourceMove_disabled (by simp [hp]) (by simp [hp]) (by simp [hp]) a).symm.trans h
  | sink a => cases (sinkMove_disabled (by simp [hp]) a).symm.trans h
  | reset => exact .inr (.inl rfl)

/-- Settles O48, by `move_idle_cases`. -/
theorem reportStaysUntilTheNextCommand : Obligations.ReportStaysUntilTheNextCommand := by
  unfold Obligations.ReportStaysUntilTheNextCommand
  intro s t hp h hcmd hreset
  rcases step_cases h with ⟨-, rfl⟩ | ⟨m, ms, hs, hm⟩
  · rw [unscheduled, if_neg (by simp [hp])]
    exact ⟨rfl, rfl, rfl, rfl, rfl, rfl, hp⟩
  · rw [hs] at hcmd hreset
    rcases move_idle_cases (s := setSchedule ms s) hp hm with ⟨w, rfl⟩ | rfl | ⟨a, rfl⟩ | ⟨w, rfl⟩ | rfl
    · exact absurd rfl (hcmd w)
    · exact absurd rfl hreset
    all_goals exact ⟨rfl, rfl, rfl, rfl, rfl, rfl, hp⟩

/-! ### The Source's answers (R41, R43) -/

theorem srcRead_byte (kind : RequestKind) (b : Byte) : srcRead kind (.byte b) = .byte b := by
  cases kind <;> rfl

theorem srcRead_err (kind : RequestKind) (e : Config.IoErr) : srcRead kind (.err e) = .err e := by
  cases kind <;> rfl

theorem srcRead_exact_ne_empty (a : SrcAnswer) : srcRead .exact a ≠ .empty := by
  cases a <;> simp [srcRead, exactRead]

/-- Settles O17: only an Exact request turns an answer into another, and only Empty. -/
theorem exactRequestNeverSeesEmpty : Obligations.ExactRequestNeverSeesEmpty := by
  unfold Obligations.ExactRequestNeverSeesEmpty
  exact fun kind b e =>
    ⟨srcRead_byte kind b, srcRead_err kind e, rfl, rfl, srcRead_exact_ne_empty⟩

theorem requestKind_eq_upTo_iff (s : State) :
    requestKind s = .upTo ↔ s.phase = .decFirst ∧ s.opk = .trydec := by
  unfold requestKind
  split_ifs with h <;> simp [h]

/-- Settles O18, by the phases in which `sourceMove` is enabled. -/
theorem sourceStepsExactlyWhileDecoding : Obligations.SourceStepsExactlyWhileDecoding := by
  unfold Obligations.SourceStepsExactlyWhileDecoding
  intro s a rest hs
  rw [step_of_schedule hs]
  refine ⟨?_, fun h1 h2 h3 => sourceMove_disabled (s := setSchedule rest s) h1 h2 h3 a,
    requestKind_eq_upTo_iff s⟩
  rintro (hp | hp | hp)
  · exact ⟨_, sourceMove_first (s := setSchedule rest s) hp a⟩
  · exact ⟨_, sourceMove_mid (s := setSchedule rest s) hp a⟩
  · exact ⟨_, sourceMove_last (s := setSchedule rest s) hp a⟩

/-! ### The streams (R44 to R46) -/

/-- From `s` to `t` the consumed bytes grow by `taken` and the sink's stream by `put`. -/
structure StreamsGrow (taken put : List Byte) (s t : State) : Prop where
  srcTaken : t.srcTaken = s.srcTaken ++ taken
  sinkStream : t.sinkStream = s.sinkStream ++ put

/-- What a Sink answer appends to the sink's stream (R45). -/
def acceptedBytes (a : SinkAnswer) (s : State) : List Byte :=
  match a with
  | .ok => [offeredByte s.rem]
  | .err _ => []

section Streams

variable {s t : State} {taken put : List Byte}

theorem streamsGrow_of_eq (hsrc : t.srcTaken = s.srcTaken) (hsink : t.sinkStream = s.sinkStream) :
    StreamsGrow [] [] s t :=
  ⟨by simp [hsrc], by simp [hsink]⟩

theorem streamsGrow_takeByte (b : Byte) (s : State) : StreamsGrow [b] [] s (takeByte b s) :=
  ⟨rfl, (List.append_nil _).symm⟩

theorem streamsGrow_takeException (x : Exception) (h : StreamsGrow taken put s t) :
    StreamsGrow taken put s (takeException x t) :=
  ⟨by simp [h.srcTaken], by simp [h.sinkStream]⟩

theorem streamsGrow_deliver (v : Word) (h : StreamsGrow taken put s t) :
    StreamsGrow taken put s (deliver v t) := by
  obtain ⟨_, _, _, _, e, -⟩ := deliver_spec t v
  rw [e]
  exact ⟨h.srcTaken, h.sinkStream⟩

theorem bytesOf_of_exactRead_error {a : SrcAnswer} {e : Config.IoErr} (h : exactRead a = .error e) :
    bytesOf [a] = [] := by
  cases a with
  | byte b => cases h
  | empty => rfl
  | err e => rfl

variable (s)

theorem streamsGrow_decFirst (a : SrcAnswer) : StreamsGrow (bytesOf [a]) [] s (decFirst a s) := by
  rcases decFirst_cases s a with ⟨b, rfl, -, e⟩ | ⟨b, rfl, -, e⟩ | ⟨rfl, -, e⟩ | ⟨x, ha, e⟩ <;> rw [e]
  · exact streamsGrow_deliver _ (streamsGrow_takeByte b s)
  · exact { streamsGrow_takeByte b s with }
  · exact streamsGrow_of_eq rfl rfl
  · obtain rfl | ⟨rfl, -, -⟩ := ha <;>
      exact streamsGrow_takeException _ (streamsGrow_of_eq rfl rfl)

theorem streamsGrow_decMid (a : SrcAnswer) : StreamsGrow (bytesOf [a]) [] s (decMid a s) := by
  rcases decMid_cases s a with ⟨c, rfl, -, e⟩ | ⟨c, rfl, -, e⟩ | ⟨x, ha, e⟩ <;> rw [e]
  · exact streamsGrow_deliver _ { streamsGrow_takeByte c s with }
  · exact { streamsGrow_takeByte c s with }
  · rw [bytesOf_of_exactRead_error ha]
    exact streamsGrow_takeException _ (streamsGrow_of_eq rfl rfl)

theorem streamsGrow_decLast (a : SrcAnswer) : StreamsGrow (bytesOf [a]) [] s (decLast a s) := by
  rcases decLast_cases s a with ⟨v, -, rfl, e⟩ | ⟨d, rfl, -, e⟩ | ⟨x, ha, e⟩ <;> rw [e]
  · exact streamsGrow_deliver _ { streamsGrow_takeByte 0x01 s with }
  · exact streamsGrow_takeException _ (streamsGrow_takeByte d s)
  · rw [bytesOf_of_exactRead_error ha]
    exact streamsGrow_takeException _ (streamsGrow_of_eq rfl rfl)

theorem streamsGrow_encEmit (a : SinkAnswer) : StreamsGrow [] (acceptedBytes a s) s (encEmit a s) := by
  rcases encEmit_cases s a with ⟨rfl, -, e⟩ | ⟨rfl, -, e⟩ | ⟨x, rfl, e⟩ <;> rw [e]
  · exact ⟨(List.append_nil _).symm, rfl⟩
  · exact ⟨(List.append_nil _).symm, rfl⟩
  · exact streamsGrow_takeException _ (streamsGrow_of_eq rfl rfl)

theorem streamsGrow_issue (k : Op) (n : Bool) : StreamsGrow [] [] s (issue k n s) := by
  by_cases hp : s.phase = .idle
  · rw [issue_idle hp]
    obtain ⟨_, _, e, -⟩ := accept_spec s k n
    rw [e]
    exact streamsGrow_of_eq rfl rfl
  · rw [issue_busy hp]
    exact streamsGrow_of_eq rfl rfl

theorem streamsGrow_issueIllegal : StreamsGrow [] [] s (issueIllegal s) := by
  by_cases hp : s.phase = .idle
  · rw [issueIllegal_idle hp]
    exact streamsGrow_of_eq rfl rfl
  · rw [issueIllegal_busy hp]
    exact streamsGrow_of_eq rfl rfl

end Streams

/-- The bytes that a move consumes from the source, if it is made (R44). -/
def takenBytes : Move → List Byte
  | .source a => bytesOf [a]
  | .host _ | .datapath | .sink _ | .reset => []

/-- The bytes that a move appends to the sink's stream, if it is made (R46). -/
def putBytes (s : State) : Move → List Byte
  | .sink a => acceptedBytes a s
  | .host _ | .datapath | .source _ | .reset => []

theorem streamsGrow_move {m : Move} {s t : State} (h : move m s = .next t) :
    StreamsGrow (takenBytes m) (putBytes s m) s t := by
  rcases move_cases h with ⟨a, rfl, -, rfl⟩ | ⟨w, i, rfl, -, rfl⟩ | ⟨w, rfl, -, rfl⟩ | ⟨w, rfl, rfl⟩ |
    ⟨a, w, rfl, -, -, -, rfl⟩ | ⟨rfl, -, rfl⟩ | ⟨a, rfl, -, rfl⟩ | ⟨a, rfl, -, rfl⟩ |
    ⟨a, rfl, -, rfl⟩ | ⟨a, rfl, -, rfl⟩ | ⟨rfl, rfl⟩
  · exact streamsGrow_of_eq rfl rfl
  · exact streamsGrow_issue s _ _
  · exact streamsGrow_issueIllegal s
  · exact streamsGrow_of_eq rfl rfl
  · exact streamsGrow_of_eq rfl rfl
  · exact streamsGrow_of_eq rfl rfl
  · exact streamsGrow_decFirst s a
  · exact streamsGrow_decMid s a
  · exact streamsGrow_decLast s a
  · exact streamsGrow_encEmit s a
  · exact streamsGrow_of_eq rfl rfl

theorem streamsGrow_unscheduled (s : State) : StreamsGrow [] [] s (unscheduled s) := by
  unfold unscheduled
  split_ifs <;> exact streamsGrow_of_eq rfl rfl

/-- Settles O52, by `streamsGrow_move`. -/
theorem streamsGrowByTheAnsweredBytes : Obligations.StreamsGrowByTheAnsweredBytes := by
  unfold Obligations.StreamsGrowByTheAnsweredBytes
  intro s t h
  rcases step_cases h with ⟨hs, rfl⟩ | ⟨m, ms, hs, hm⟩ <;> rw [hs]
  · obtain ⟨hsrc, hsink⟩ := streamsGrow_unscheduled s
    exact ⟨hsrc, hsink⟩
  · obtain ⟨hsrc, hsink⟩ := streamsGrow_move hm
    cases m with
    | source a => cases a <;> exact ⟨hsrc, hsink⟩
    | sink a => cases a <;> exact ⟨hsrc, hsink⟩
    | host a => exact ⟨hsrc, hsink⟩
    | datapath => exact ⟨hsrc, hsink⟩
    | reset => exact ⟨hsrc, hsink⟩

/-- Settles O32, by the phase in which `sinkMove` is enabled and `streamsGrow_encEmit`. -/
theorem sinkStepsExactlyWhileEncoding : Obligations.SinkStepsExactlyWhileEncoding := by
  unfold Obligations.SinkStepsExactlyWhileEncoding
  intro s a rest hs
  rw [step_of_schedule hs]
  exact ⟨fun hp => ⟨_, sinkMove_enabled (s := setSchedule rest s) hp a,
      (streamsGrow_encEmit (setSchedule rest s) a).sinkStream⟩,
    fun hp => sinkMove_disabled (s := setSchedule rest s) hp a⟩

/-! ### The reference Source and Sink (R47) -/

theorem due_of_failure {src : ListSource} {e : Config.IoErr}
    (h : src.failure = some (src.consumed, e)) : src.due = some e := by
  simp [ListSource.due, h]

theorem due_eq_none {src : ListSource}
    (h : ∀ k e, src.failure = some (k, e) → src.consumed ≠ k) : src.due = none := by
  unfold ListSource.due
  split
  next k e hf => exact if_neg (h k e hf)
  next => rfl

section ListSource

variable {src : ListSource}

theorem source_failing {e : Config.IoErr} (h : src.due = some e) :
    src.answer = .err e ∧ src.afterAnswer = src := by
  simp [ListSource.answer, ListSource.afterAnswer, h]

theorem source_cons {b : Byte} {more : List Byte} (h : src.due = none) (hb : src.bytes = b :: more) :
    src.answer = .byte b ∧
      src.afterAnswer = { src with bytes := more, consumed := src.consumed + 1 } := by
  simp [ListSource.answer, ListSource.afterAnswer, h, hb]

theorem source_nil (h : src.due = none) (hb : src.bytes = []) :
    src.answer = .empty ∧ src.afterAnswer = src := by
  simp [ListSource.answer, ListSource.afterAnswer, h, hb]

end ListSource

section ListSink

variable {snk : ListSink}

theorem sink_answer_err {e : Config.IoErr} (h : snk.failure = some (snk.out.length, e)) :
    snk.answer = .err e := by
  simp [ListSink.answer, h]

theorem sink_answer_ok (h : ∀ k e, snk.failure = some (k, e) → snk.out.length ≠ k) :
    snk.answer = .ok := by
  unfold ListSink.answer
  split
  next k e hf => exact if_neg (h k e hf)
  next => rfl

theorem sink_afterOffer_err {e : Config.IoErr} (h : snk.answer = .err e) (b : Byte) :
    snk.afterOffer b = snk := by
  simp only [ListSink.afterOffer, h]

theorem sink_afterOffer_ok (h : snk.answer = .ok) (b : Byte) :
    snk.afterOffer b = { snk with out := snk.out ++ [b] } := by
  simp only [ListSink.afterOffer, h]

end ListSink

/-- Settles O59, by whether the failure is due. -/
theorem referenceEnvironments : Obligations.ReferenceEnvironments := by
  unfold Obligations.ReferenceEnvironments
  refine ⟨fun src e h => source_failing (due_of_failure h), fun src b more h => ⟨fun hb => ?_, ?_⟩,
    fun snk b e h => ?_, fun snk b h => ?_⟩
  · obtain ⟨hans, hafter⟩ := source_cons (due_eq_none h) hb
    rw [hafter]
    exact ⟨hans, rfl, rfl, rfl⟩
  · exact source_nil (due_eq_none h)
  · exact ⟨sink_answer_err h, sink_afterOffer_err (sink_answer_err h) b⟩
  · rw [sink_afterOffer_ok (sink_answer_ok h)]
    exact ⟨sink_answer_ok h, rfl, rfl⟩

/-! ### An encode into a failing sink (R47, R94, R98) -/

/-- The system after the Sink accepts the offered byte while more of the value remains (R93). -/
def afterAcceptedByte (y : System) : System :=
  { y with
    block := emitByte y.block
    sink := { y.sink with out := y.sink.out ++ [offeredByte y.block.rem] } }

section Turns

variable {y z : System}

/-- A run takes its first turn, then the rest. -/
theorem system_run_cons {g : Agent} (gs : List Agent) (h : y.turn g = .next z) :
    y.run (g :: gs) = z.run gs := by
  rw [System.run, h]

/-- The Host's turn at `issue` runs the command (R69). -/
theorem hostTurn_issue {i : Instr} {rest : List HostStmt} {t : State}
    (hprog : y.program = .issue i :: rest) (hx : exec i y.block = .next t) :
    y.turn .host = .next { y with block := t, program := rest } := by
  have hmove : move (.host (stmtAccess (.issue i))) y.block = .next t := by
    have hd : decode (encode i) = some i := by cases i <;> decide
    change hostMove (.write 64 0x00 (encode i)) y.block = _
    rw [hostMove_write _ rfl, hostWrite_cmd, writeCmd_legal _ hd, hx]
  simp only [System.turn, System.hostTurn, hprog, stepWith_eq_move, hmove, onNext, afterStmt]

/-- The Sink's turn in ENC_EMIT. -/
theorem sinkTurn (hp : y.block.phase = .encEmit) :
    y.turn .sink = .next { y with block := encEmit y.sink.answer y.block
                                  sink := y.sink.afterOffer (offeredByte y.block.rem) } := by
  have hmove : move (.sink y.sink.answer) y.block = .next (encEmit y.sink.answer y.block) :=
    sinkMove_enabled hp _
  simp only [System.turn, stepWith_eq_move, hmove, onNext]

theorem sinkTurn_ok (hp : y.block.phase = .encEmit) (ha : y.sink.answer = .ok)
    (hmore : afterGroup y.block.rem ≠ 0) : y.turn .sink = .next (afterAcceptedByte y) := by
  rw [sinkTurn hp, sink_afterOffer_ok ha, ha, encEmit, if_neg hmore, afterAcceptedByte]

theorem sinkTurn_err (hp : y.block.phase = .encEmit) {e : Config.IoErr} (ha : y.sink.answer = .err e) :
    y.turn .sink = .next { y with block := takeException (.sinkErr e) y.block } := by
  rw [sinkTurn hp, sink_afterOffer_err ha, ha, encEmit]

end Turns

/-- The end of an encode of `v` from `y` whose sink failed with `e` after `j` bytes (R94). -/
structure EncodeFailed (v : Word) (j : Nat) (e : Config.IoErr) (y z : System) : Prop where
  out : z.sink.out = y.sink.out ++ (enc v).take j
  code : z.block.code = .sinkErr
  err : z.block.err = some e
  busy : z.block.busy = false
  result : z.block.result = y.block.result

/-- In ENC_EMIT, `j` bytes are accepted and the next one fails. By induction on `j`: each accepted byte is
the first byte of `enc` of what remains. -/
theorem run_failingSink (j : Nat) (e : Config.IoErr) (y : System) (hp : y.block.phase = .encEmit)
    (hj : j < len7 y.block.rem) (hf : y.sink.failure = some (y.sink.out.length + j, e)) :
    ∃ z, y.run (List.replicate (j + 1) .sink) = .next z ∧ EncodeFailed y.block.rem j e y z := by
  induction j generalizing y with
  | zero =>
    have hturn := sinkTurn_err hp (sink_answer_err hf)
    exact ⟨_, system_run_cons [] hturn, by simp, rfl, rfl, rfl, rfl⟩
  | succ j ih =>
    have hmore : afterGroup y.block.rem ≠ 0 := fun hz => by
      rw [len7_of_afterGroup_eq_zero _ hz] at hj
      omega
    have hok : y.sink.answer = .ok := sink_answer_ok fun k e' hk => by
      rw [hf] at hk
      cases hk
      omega
    have hturn := sinkTurn_ok hp hok hmore
    have hlen : j < len7 (afterAcceptedByte y).block.rem := by
      rw [len7_afterGroup _ hmore] at hj
      exact Nat.lt_of_succ_lt_succ hj
    have hlater : (afterAcceptedByte y).sink.failure =
        some ((afterAcceptedByte y).sink.out.length + j, e) := by
      rw [afterAcceptedByte, hf, List.length_append, List.length_singleton, add_assoc, add_comm j]
    obtain ⟨z, hrun, hz⟩ := ih (afterAcceptedByte y) hp hlen hlater
    refine ⟨z, (system_run_cons _ hturn).trans hrun, { hz with out := ?_ }⟩
    rw [enc_eq, if_neg hmore, List.take_succ_cons, hz.out]
    exact List.append_assoc _ _ _

/-- Settles O40: the accept latches OPERAND into REM, and `run_failingSink` goes on from there. -/
theorem failingSinkKeepsTheBytesBeforeIt : Obligations.FailingSinkKeepsTheBytesBeforeIt := by
  unfold Obligations.FailingSinkKeepsTheBytesBeforeIt
  intro y j e hp hprog hj hf
  have hx : exec .enc64 y.block = .next (accept .enc false y.block) := by
    rw [exec_eq_issue, issue_idle hp]; rfl
  obtain ⟨z, hrun, hz⟩ :=
    run_failingSink j e { y with block := accept .enc false y.block, program := [] } rfl hj hf
  exact ⟨z, (system_run_cons _ (hostTurn_issue hprog hx)).trans hrun, hz.out, hz.code, hz.err, hz.busy,
    hz.result⟩

end Sys2Proof.Proofs
end

section
/-! PROOFS. The encodings (30_encoding.md): the command words and what their CMD writes do (R56 to R62), the
set of accepted varints with its decoder (R63 to R68, R86), and the Host's pseudo-instructions (R69). -/

namespace Sys2Proof.Proofs

open Sys2Proof.Machine Sys2Proof.Safety Sys2Proof.Statement

/-! ### Decode and encode (R56, R57, R70) -/

/-- OP and N select a command exactly when they are that command's (R57). -/
theorem commandOf_eq_some_iff (op : BitVec 3) (n : Bool) (i : Instr) :
    commandOf op.toNat n = some i ↔ (op, n) = opcodeOf i := by
  cases i <;> revert op n <;> decide

/-- OP selects no command exactly when it is 000, 101, 110 or 111, whatever N is (R58). -/
theorem commandOf_eq_none_iff (op : BitVec 3) (n : Bool) :
    commandOf op.toNat n = none ↔ op.toNat ∈ [0, 5, 6, 7] := by
  revert op n; decide

theorem decode_encode (i : Instr) : decode (encode i) = some i := by
  cases i <;> decide

theorem encode_of_decode {w : Word} {i : Instr} (h : decode w = some i) : encode i = w := by
  unfold decode at h
  split_ifs at h with hrsvd
  have hop := (commandOf_eq_some_iff _ _ i).1 h
  have hfields : (⟨(opcodeOf i).1, (opcodeOf i).2, 0⟩ : CommandFields) = commandFields w := by
    rw [← hop, ← eq_of_beq hrsvd]
  rw [encode, hfields, wordOfFields_commandFields]

theorem decode_eq_some_iff (w : Word) (i : Instr) : decode w = some i ↔ encode i = w :=
  ⟨encode_of_decode, fun h => h ▸ decode_encode i⟩

/-- Settles O3: a command's word decodes to it, and the word is made of exactly the fields that decode
read. -/
theorem decodeAndEncodeAgree : Obligations.DecodeAndEncodeAgree := by
  unfold Obligations.DecodeAndEncodeAgree
  exact fun w i => ⟨by cases i <;> rfl, decode_eq_some_iff w i⟩

/-- Settles O2, by `decode_eq_some_iff`: the row of each command holds its encoding. -/
theorem decodedWordsAreExactlyTheTable : Obligations.DecodedWordsAreExactlyTheTable := by
  unfold Obligations.DecodedWordsAreExactlyTheTable
  intro w i
  rw [decode_eq_some_iff, eq_comm]
  cases i <;> simp only [reduceCtorEq, true_and, false_and, false_or, or_false] <;> rfl

/-- Settles O1: the eight words are the commands' encodings. -/
theorem tableWordsDecode : Obligations.TableWordsDecode := by
  unfold Obligations.TableWordsDecode
  exact ⟨decode_encode .len64, decode_encode .lenN, decode_encode .dec64, decode_encode .decN,
    decode_encode .trydec64, decode_encode .trydecN, decode_encode .enc64, decode_encode .encN⟩

/-! ### CMD writes (R58, R60 to R62) -/

theorem toNat_commandFields_op (w : Word) : (commandFields w).op.toNat = w.toNat % 8 := by
  simp [commandFields]

theorem rsvdZero_iff (w : Word) : (commandFields w).rsvdZero = true ↔ w.toNat / 16 = 0 := by
  have hw := w.isLt
  rw [CommandFields.rsvdZero, beq_iff_eq, ← BitVec.toNat_inj]
  simp only [commandFields, BitVec.extractLsb'_toNat, Nat.shiftRight_eq_div_pow]
  change w.toNat / 2 ^ 4 % 2 ^ 60 = 0 ↔ _
  omega

/-- The illegal words (R58). -/
theorem decode_eq_none_iff (w : Word) :
    decode w = none ↔ w.toNat % 8 ∈ [0, 5, 6, 7] ∨ w.toNat / 16 ≠ 0 := by
  rw [decode, ← toNat_commandFields_op, ← commandOf_eq_none_iff _ (commandFields w).n, ne_eq,
    ← rsvdZero_iff]
  split_ifs with h <;> simp [h]

section CmdWrites

variable {s : State} {w : Word} {rest : List Move}

theorem exec_idle (hp : s.phase = .idle) (i : Instr) :
    exec i s = .next (accept (kindOf i) (nativeOf i) s) := by
  rw [exec_eq_issue, issue_idle hp]

theorem exec_busy (hp : s.phase ≠ .idle) (i : Instr) : exec i s = .next (loseCommand s) := by
  rw [exec_eq_issue, issue_busy hp]

/-- Outside IDLE a CMD write loses its word, legal or not (R61). -/
theorem step_cmd_busy (hp : s.phase ≠ .idle) (hs : s.schedule = .host (.write 64 0x00 w) :: rest) :
    step s = .next { s with schedule := rest, cmdLost := true } := by
  rw [step_write rfl hs, hostWrite_cmd]
  cases hd : decode w with
  | some i => rw [writeCmd_legal _ hd, exec_busy (by exact hp)]; rfl
  | none => rw [writeCmd_illegal _ hd, issueIllegal_busy (by exact hp)]; rfl

/-- In IDLE an illegal word completes with ILLEGAL_CMD (R62). -/
theorem step_cmd_illegal (hp : s.phase = .idle) (hd : decode w = none)
    (hs : s.schedule = .host (.write 64 0x00 w) :: rest) :
    step s = .next { s with schedule := rest, cmdLost := false, err := none, count := 0,
                            code := .illegalCmd, busy := false, phase := .idle } := by
  rw [step_write rfl hs, hostWrite_cmd, writeCmd_illegal _ hd, issueIllegal_idle (by exact hp)]
  rfl

end CmdWrites

/-- Settles O4, by `decode_eq_none_iff` and the two CMD writes `step_cmd_illegal` and `step_cmd_busy`. -/
theorem illegalWordsAndTheirWrites : Obligations.IllegalWordsAndTheirWrites := by
  unfold Obligations.IllegalWordsAndTheirWrites
  exact fun w => ⟨decode_eq_none_iff w, fun s rest hs =>
    ⟨fun hd hp => ⟨_, step_cmd_illegal hp hd hs, rfl, rfl, rfl⟩, fun hp => step_cmd_busy hp hs⟩⟩

/-- Settles O7: `accept`, where the operand of a native-width command is `lowBits` of OPERAND. -/
theorem acceptStepOfEveryCommand : Obligations.AcceptStepOfEveryCommand := by
  unfold Obligations.AcceptStepOfEveryCommand
  intro s hp
  simp only [exec_idle hp, ← nativeTrunc_eq_lowBits]
  exact ⟨rfl, rfl, rfl, rfl, rfl, rfl, rfl, rfl⟩

/-- Settles O8, by `exec_busy` and `step_cmd_busy`. -/
theorem busyBlockDiscardsCommandWords : Obligations.BusyBlockDiscardsCommandWords := by
  unfold Obligations.BusyBlockDiscardsCommandWords
  exact fun s hp => ⟨exec_busy hp, fun w rest => step_cmd_busy hp⟩

/-- Settles O9, by `step_cmd_illegal`. -/
theorem illegalWordInIdleCompletes : Obligations.IllegalWordInIdleCompletes := by
  unfold Obligations.IllegalWordInIdleCompletes
  exact fun s w rest => step_cmd_illegal

/-! ### The values of varints (R64, R67) -/

theorem varintValue_append (as bs : List Byte) :
    varintValue (as ++ bs) = varintValue as + 2 ^ (7 * as.length) * varintValue bs := by
  induction as with
  | nil => simp [varintValue]
  | cons a as ih =>
    rw [List.cons_append, varintValue, varintValue, ih, List.length_cons]
    ring

theorem varintValue_lt (bs : List Byte) : varintValue bs < 2 ^ (7 * bs.length) := by
  induction bs with
  | nil => simp [varintValue]
  | cons b bs ih =>
    rw [varintValue, List.length_cons, Nat.mul_succ, Nat.pow_add', toNat_payload]
    omega

/-- Settles O29: each byte holds 7 bits, and a tenth byte is 0x01 at bit 63. -/
theorem acceptedValueRanges : Obligations.AcceptedValueRanges := by
  unfold Obligations.AcceptedValueRanges
  intro bs hbs
  constructor
  · intro hlen
    exact (varintValue_lt bs).trans_le (Nat.pow_le_pow_right (by norm_num) (by omega))
  · intro hlen
    obtain ⟨-, h9, -⟩ | ⟨-, -, hlast⟩ := hbs
    · omega
    · have hsplit : varintValue bs = varintValue bs.dropLast + 2 ^ 63 := by
        conv_lhs => rw [← List.dropLast_append_getLast? _ hlast]
        rw [varintValue_append, List.length_dropLast, hlen]
        rfl
      have hlow := varintValue_lt bs.dropLast
      rw [List.length_dropLast, hlen] at hlow
      omega

/-! ### The decoder accepts exactly `Accepted` (R67, R86) -/

/-- A varint may go on with `bs` when `n` more bytes stand before the tenth. -/
def AcceptedWithin (n : Nat) (bs : List Byte) : Prop :=
  (1 ≤ bs.length ∧ bs.length ≤ n ∧ VarintShape bs) ∨
    (bs.length = n + 1 ∧ (∀ b ∈ bs.dropLast, terminal b = false) ∧ bs.getLast? = some 0x01)

theorem accepted_iff (bs : List Byte) : Accepted bs ↔ AcceptedWithin 9 bs := Iff.rfl

theorem not_acceptedWithin_nil (n : Nat) : ¬ AcceptedWithin n [] := by
  simp [AcceptedWithin]

theorem acceptedWithin_zero_cons (c : Byte) (bs : List Byte) :
    AcceptedWithin 0 (c :: bs) ↔ c = 0x01 ∧ bs = [] := by
  cases bs <;> simp [AcceptedWithin]

theorem acceptedWithin_succ_cons_terminal {c : Byte} (hc : terminal c = true) (n : Nat)
    (bs : List Byte) : AcceptedWithin (n + 1) (c :: bs) ↔ bs = [] := by
  cases bs <;> simp [AcceptedWithin, VarintShape, hc]

theorem acceptedWithin_succ_cons {c : Byte} (hc : terminal c = false) (n : Nat) (bs : List Byte) :
    AcceptedWithin (n + 1) (c :: bs) ↔ AcceptedWithin n bs := by
  cases bs <;> simp [AcceptedWithin, VarintShape, hc]

/-- The answers are the bytes of an accepted rest of a varint and then `left`, and they come to the value
`v` and the length `k`. Before them the value is `acc`; the first of them is the byte number `i` of the
varint, and its group stands at bit `off`. -/
def DecodesOk (n acc off i v k : Nat) (answers left : List SrcAnswer) : Prop :=
  ∃ bs : List Byte, answers = bs.map SrcAnswer.byte ++ left ∧ AcceptedWithin n bs ∧
    v = acc + varintValue bs * 2 ^ off ∧ k + 1 = i + bs.length

section Outcome

variable {n acc off i v k : Nat} {c : Byte} {more left : List SrcAnswer}

theorem not_decodesOk_nil : ¬ DecodesOk n acc off i v k [] left := by
  rintro ⟨bs, hans, hbs, -⟩
  obtain ⟨hnil, -⟩ := List.append_eq_nil_iff.1 hans.symm
  exact not_acceptedWithin_nil n (List.map_eq_nil_iff.1 hnil ▸ hbs)

theorem not_decodesOk_of_error {a : SrcAnswer} {e : Config.IoErr} (ha : exactRead a = .error e) :
    ¬ DecodesOk n acc off i v k (a :: more) left := by
  rintro ⟨bs, hans, hbs, -⟩
  cases bs with
  | nil => exact not_acceptedWithin_nil n hbs
  | cons b bs =>
    obtain ⟨rfl, -⟩ := List.cons_eq_cons.1 hans
    cases ha

theorem decodesOk_byte_iff : DecodesOk n acc off i v k (.byte c :: more) left ↔
    ∃ bs : List Byte, more = bs.map SrcAnswer.byte ++ left ∧ AcceptedWithin n (c :: bs) ∧
      v = acc + (payload c).toNat * 2 ^ off + varintValue bs * 2 ^ (off + 7) ∧
      k = i + bs.length := by
  have hvalue (bs : List Byte) : varintValue (c :: bs) * 2 ^ off =
      (payload c).toNat * 2 ^ off + varintValue bs * 2 ^ (off + 7) := by
    rw [varintValue]; ring
  constructor
  · rintro ⟨bs, hans, hbs, hv, hk⟩
    cases bs with
    | nil => exact absurd hbs (not_acceptedWithin_nil n)
    | cons b bs =>
      obtain ⟨hb, hmore⟩ := List.cons_eq_cons.1 hans
      cases hb
      exact ⟨bs, hmore, hbs, by rw [hv, hvalue, add_assoc], by simpa [← add_assoc] using hk⟩
  · rintro ⟨bs, rfl, hbs, rfl, rfl⟩
    exact ⟨c :: bs, rfl, hbs, by rw [hvalue, add_assoc], by simp [add_assoc]⟩

/-- An interior terminal byte ends the varint (R79). -/
theorem decodesOk_terminal_iff (hc : terminal c = true) :
    DecodesOk (n + 1) acc off i v k (.byte c :: more) left ↔
      v = acc + (payload c).toNat * 2 ^ off ∧ k = i ∧ more = left := by
  rw [decodesOk_byte_iff]
  simp only [acceptedWithin_succ_cons_terminal hc]
  constructor
  · rintro ⟨bs, hmore, rfl, hv, hk⟩
    exact ⟨by simpa [varintValue] using hv, hk, hmore⟩
  · rintro ⟨rfl, rfl, rfl⟩
    exact ⟨[], rfl, rfl, by simp [varintValue], rfl⟩

/-- After an interior continuation byte the next group stands 7 bits higher (R79). -/
theorem decodesOk_continuation_iff (hc : terminal c = false) :
    DecodesOk (n + 1) acc off i v k (.byte c :: more) left ↔
      DecodesOk n (acc + (payload c).toNat * 2 ^ off) (off + 7) (i + 1) v k more left := by
  rw [decodesOk_byte_iff]
  simp only [acceptedWithin_succ_cons hc]
  refine exists_congr fun bs => ?_
  rw [add_right_comm i, Nat.add_right_cancel_iff]

/-- The tenth byte must be 0x01 (R81). -/
theorem decodesOk_tenth_iff : DecodesOk 0 acc off i v k (.byte c :: more) left ↔
    c = 0x01 ∧ v = acc + 2 ^ off ∧ k = i ∧ more = left := by
  rw [decodesOk_byte_iff]
  simp only [acceptedWithin_zero_cons]
  constructor
  · rintro ⟨bs, hmore, ⟨rfl, rfl⟩, hv, hk⟩
    exact ⟨rfl, by simpa [varintValue, toNat_payload] using hv, hk, hmore⟩
  · rintro ⟨rfl, rfl, rfl, rfl⟩
    exact ⟨[], rfl, ⟨rfl, rfl⟩, by simp [varintValue, toNat_payload], rfl⟩

/-- The tenth byte, in `loop` of R86. -/
theorem outcomeLoop_tenth (acc i : Nat) (c : Byte) (more : List SrcAnswer) :
    outcomeLoop acc 63 i (.byte c :: more) =
      some (if c = 0x01 then .ok (acc + 2 ^ 63) 10 else .overflow, more) := by
  rw [outcomeLoop, apply_ite (fun o => some (o, more))]
  rfl

/-- An interior terminal byte, in `loop` of R86. -/
theorem outcomeLoop_terminal (hoff : off ≠ 63) (hc : terminal c = true) (acc i : Nat)
    (more : List SrcAnswer) :
    outcomeLoop acc off i (.byte c :: more) =
      some (.ok (acc + (payload c).toNat * 2 ^ off) i, more) := by
  simp only [outcomeLoop, exactRead, if_neg hoff, if_pos ((terminal_iff c).1 hc)]

/-- An interior continuation byte, in `loop` of R86. -/
theorem outcomeLoop_continuation (hoff : off ≠ 63) (hc : terminal c = false) (acc i : Nat)
    (more : List SrcAnswer) :
    outcomeLoop acc off i (.byte c :: more) =
      outcomeLoop (acc + (payload c).toNat * 2 ^ off) (off + 7) (i + 1) more := by
  simp only [outcomeLoop, exactRead, if_neg hoff, if_neg ((terminal_eq_false_iff c).1 hc).not_gt]

/-- `loop` of R86 when `n` bytes may stand before the tenth, by induction on the answers: the loop and
`DecodesOk` split alike on each. -/
theorem outcomeLoop_ok_iff (answers : List SrcAnswer) (n acc off i : Nat) (hoff : off + 7 * n = 63)
    (hi : i + n = 10) :
    outcomeLoop acc off i answers = some (.ok v k, left) ↔ DecodesOk n acc off i v k answers left := by
  induction answers generalizing n acc off i with
  | nil => simp [outcomeLoop, not_decodesOk_nil]
  | cons a more ih =>
    cases a with
    | empty => simp [outcomeLoop, exactRead, not_decodesOk_of_error (a := .empty) rfl]
    | err e => simp [outcomeLoop, exactRead, not_decodesOk_of_error (a := .err e) rfl]
    | byte c =>
      cases n with
      | zero =>
        obtain rfl : off = 63 := hoff
        obtain rfl : i = 10 := hi
        rw [outcomeLoop_tenth, decodesOk_tenth_iff]
        by_cases hc : c = 0x01
        · simp [hc, eq_comm, and_assoc]
        · rw [if_neg hc]
          exact iff_of_false (by simp) fun h => hc h.1
      | succ n =>
        have hinterior : off ≠ 63 := by omega
        cases hc : terminal c
        · rw [outcomeLoop_continuation hinterior hc, decodesOk_continuation_iff hc]
          exact ih n _ _ _ (by omega) (by omega)
        · rw [outcomeLoop_terminal hinterior hc, decodesOk_terminal_iff hc]
          simp [eq_comm, and_assoc]

/-- The first request, of either kind, decodes to Ok as the loop does from nothing (R86): only a byte leads
on, and Empty is no Ok in either. -/
theorem outcome_ok_iff_outcomeLoop (kind : RequestKind) (answers : List SrcAnswer) :
    outcome kind answers = some (.ok v k, left) ↔
      outcomeLoop 0 0 1 answers = some (.ok v k, left) := by
  cases answers with
  | nil => simp [outcome, outcomeLoop]
  | cons a more =>
    cases a with
    | empty => cases kind <;> simp [outcome, outcomeLoop, srcRead, exactRead]
    | err e => simp [outcome, outcomeLoop, srcRead_err, exactRead]
    | byte b =>
      cases hb : terminal b
      · have hnlt := ((terminal_eq_false_iff b).1 hb).not_gt
        rw [outcomeLoop_continuation (by decide) hb]
        simp [outcome, srcRead_byte, hnlt]
      · have hlt := (terminal_iff b).1 hb
        rw [outcomeLoop_terminal (by decide) hb]
        simp [outcome, srcRead_byte, toNat_payload, hlt, Nat.mod_eq_of_lt hlt]

end Outcome

/-- Settles O28: the decoder is the loop with nine bytes before the tenth. -/
theorem acceptedSequencesAreThoseDecodedOk : Obligations.AcceptedSequencesAreThoseDecodedOk := by
  unfold Obligations.AcceptedSequencesAreThoseDecodedOk
  intro kind answers left v k
  rw [outcome_ok_iff_outcomeLoop, outcomeLoop_ok_iff answers 9 0 0 1 rfl rfl]
  refine exists_congr fun bs => ?_
  rw [← accepted_iff, zero_add, pow_zero, mul_one, add_comm 1, Nat.add_right_cancel_iff]

/-! ### The Host's pseudo-instructions (R69) -/

theorem statusWord_busy (s : State) : (statusWord s).getLsbD 0 = s.busy :=
  (statusWordFields s).2.1

/-- The Host's turn at `wait` reads STATUS, whose bit 0 is BUSY (R69). -/
theorem hostTurn_wait {y : System} {rest : List HostStmt} (hprog : y.program = .wait :: rest) :
    y.turn .host = .next { y with block := hostRead 0x18 y.block
                                  program := if y.block.busy then .wait :: rest else rest } := by
  have hmove : move (.host (stmtAccess .wait)) y.block = .next (hostRead 0x18 y.block) :=
    hostMove_read _ rfl
  have hread : lastRead (hostRead 0x18 y.block) = statusWord y.block := by
    simp [lastRead, hostRead, readValue]
  simp only [System.turn, System.hostTurn, hprog, stepWith_eq_move, hmove, onNext, afterStmt, hread,
    statusWord_busy]

/-- Settles O60, by `hostTurn_wait` and `hostTurn_issue`. -/
theorem hostStatementsRun : Obligations.HostStatementsRun := by
  unfold Obligations.HostStatementsRun
  intro y rest
  refine ⟨fun hprog => ⟨_, hostTurn_wait hprog, rfl, ?_⟩, fun i hprog => ?_⟩
  · rw [← statusWord_eq_ofNat]; rfl
  · have hx := exec_eq_issue y.block i
    exact ⟨_, hx, hostTurn_issue hprog hx⟩

end Sys2Proof.Proofs
end

section
/-! PROOFS. The Length Calculator (40_length.md): the length function by bits and by ranges (R71), its
agreement with the encoder (R72), and the Datapath's step, scheduled or not (R73). -/

namespace Sys2Proof.Proofs

open Sys2Proof.Machine Sys2Proof.Statement

/-! ### The length function (R71, R72) -/

theorem bitsNeeded_le_iff (n k : Nat) : bitsNeeded n ≤ k ↔ n < 2 ^ k := by
  unfold bitsNeeded
  split_ifs with hn
  · simp [hn]
  · exact Nat.log2_lt hn

/-- Both sides are at most `k` exactly when `v < 2 ^ k`. -/
theorem sub_clz64_eq_bitsNeeded (v : Word) : 64 - clz64 v = bitsNeeded v.toNat :=
  eq_of_forall_ge_iff fun k => by
    rw [clz64, bits_le_iff, Nat.mod_eq_of_lt v.isLt, bitsNeeded_le_iff]

theorem lt_len7_iff (v : Word) {k : Nat} (hk : 1 ≤ k) : k < len7 v ↔ 2 ^ (7 * k) ≤ v.toNat := by
  rw [← not_le, len7_le_iff v k hk, not_lt]

/-- The ranges of R71: `len7_le_iff` bounds the value from above and `lt_len7_iff` from below, but for the
ends 1 and 10 of the lengths. -/
theorem len7_eq_iff (v : Word) (k : Nat) :
    len7 v = k ↔ (k = 1 ∧ v.toNat < 2 ^ 7) ∨
      (2 ≤ k ∧ k ≤ 9 ∧ 2 ^ (7 * (k - 1)) ≤ v.toNat ∧ v.toNat < 2 ^ (7 * k)) ∨
      (k = 10 ∧ 2 ^ 63 ≤ v.toNat) := by
  have hone := one_le_len7 v
  have hten := len7_le_ten v
  constructor
  · rintro rfl
    obtain h | ⟨h2, h9⟩ | h : len7 v = 1 ∨ (2 ≤ len7 v ∧ len7 v ≤ 9) ∨ len7 v = 10 := by omega
    · exact .inl ⟨h, (len7_le_iff v 1 le_rfl).1 h.le⟩
    · exact .inr (.inl ⟨h2, h9, (lt_len7_iff v (by omega)).1 (by omega),
        (len7_le_iff v _ hone).1 le_rfl⟩)
    · exact .inr (.inr ⟨h, (lt_len7_iff v (k := 9) (by norm_num)).1 (by omega)⟩)
  · rintro (⟨rfl, hlt⟩ | ⟨h2, -, hle, hlt⟩ | ⟨rfl, hle⟩)
    · exact le_antisymm ((len7_le_iff v 1 le_rfl).2 hlt) hone
    · have hlower : k - 1 < len7 v := (lt_len7_iff v (by omega)).2 hle
      have hupper : len7 v ≤ k := (len7_le_iff v k (by omega)).2 hlt
      omega
    · exact le_antisymm hten ((lt_len7_iff v (k := 9) (by norm_num)).2 hle)

/-- Settles O14, by `sub_clz64_eq_bitsNeeded` and `len7_eq_iff`. -/
theorem lengthFunctionByBitsAndRanges : Obligations.LengthFunctionByBitsAndRanges := by
  unfold Obligations.LengthFunctionByBitsAndRanges
  exact fun v => ⟨by rw [len7, sub_clz64_eq_bitsNeeded], len7_eq_iff v⟩

/-- The encoder writes one byte per group, up to the cut of its recursion. -/
theorem length_encUpTo (n : Nat) (v : Word) : (encUpTo n v).length = min n (len7 v) := by
  induction n generalizing v with
  | zero => simp [encUpTo]
  | succ n ih =>
    by_cases hz : afterGroup v = 0
    · simp [encUpTo, hz, len7_of_afterGroup_eq_zero v hz]
    · rw [encUpTo, if_neg hz, List.length_cons, ih, len7_afterGroup v hz, Nat.add_min_add_right]

/-- Settles O37: the cut after ten bytes is no shorter than any length. -/
theorem lengthEqualsEncodedBytes : Obligations.LengthEqualsEncodedBytes := by
  unfold Obligations.LengthEqualsEncodedBytes
  exact fun v => (length_encUpTo 10 v).trans (min_eq_right (len7_le_ten v))

/-! ### The Datapath's step (R73, R113) -/

theorem unscheduled_lenExec {s : State} (h : s.phase = .lenExec) : unscheduled s = lenStep s := if_pos h

theorem unscheduled_waits {s : State} (h : s.phase ≠ .lenExec) : unscheduled s = s := if_neg h

/-- Settles O6: the LEN evaluation is the only step the block makes by itself. -/
theorem unscheduledBlockWaits : Obligations.UnscheduledBlockWaits := by
  unfold Obligations.UnscheduledBlockWaits
  intro s hs
  rw [step_of_unscheduled hs]
  constructor
  · intro hp
    rw [unscheduled_waits hp]
  · intro hp
    rw [unscheduled_lenExec hp]
    rfl

/-- Settles O15, by the guard of the Datapath's move. -/
theorem datapathStepEvaluatesLength : Obligations.DatapathStepEvaluatesLength := by
  unfold Obligations.DatapathStepEvaluatesLength
  intro s rest hs
  have hstep : step s = lenMove (setSchedule rest s) := step_of_schedule hs
  rw [hstep]
  constructor
  · intro hp
    rw [lenMove_enabled (by exact hp)]
    rfl
  · exact fun hp => lenMove_disabled hp

end Sys2Proof.Proofs
end

section
/-! PROOFS. The Decoder's steps (41_decoder.md): delivery and narrowing (R83), the answers of the three
decode phases (R76 to R82), and why the decoder's additions never carry (R84). -/

namespace Sys2Proof.Proofs

open Sys2Proof.Machine Sys2Proof.Safety Sys2Proof.Statement

/-- Settles O24: the three branches of `deliver`, by `fitsNative_iff`. -/
theorem deliveryAndNarrowing : Obligations.DeliveryAndNarrowing := by
  unfold Obligations.DeliveryAndNarrowing
  intro v s
  simp only [← fitsNative_iff]
  split_ifs with hfits hreject
  · rw [deliver_fits hfits]; rfl
  · rw [deliver_rejects hfits hreject]; rfl
  · rw [deliver_truncates hfits hreject, nativeTrunc_eq_lowBits]; rfl

section Answers

variable {s : State}

/-! ### A byte, in each phase -/

theorem decFirst_terminal {b : Byte} (hb : terminal b = true) :
    decFirst (.byte b) s = deliver (b.setWidth 64) (takeByte b s) := by
  rw [decFirst, srcRead_byte]; exact if_pos hb

theorem decFirst_continuation {b : Byte} (hb : terminal b = false) :
    decFirst (.byte b) s =
      setPhase .decMid (setOff 7 (setAcc ((payload b).setWidth 64) (takeByte b s))) := by
  rw [decFirst, srcRead_byte]; exact if_neg (by simp [hb])

theorem decMid_terminal {c : Byte} (hc : terminal c = true) :
    decMid (.byte c) s = deliver (addGroup c s) (setAcc (addGroup c s) (takeByte c s)) :=
  if_pos hc

theorem decMid_continuation {c : Byte} (hc : terminal c = false) :
    decMid (.byte c) s = advanceOffset (setAcc (addGroup c s) (takeByte c s)) :=
  if_neg (by simp [hc])

theorem decLast_one :
    decLast (.byte 0x01) s = deliver (addTopBit s) (setAcc (addTopBit s) (takeByte 0x01 s)) := by
  rw [decLast]; exact if_pos rfl

theorem decLast_overflow {d : Byte} (hd : d ≠ 0x01) :
    decLast (.byte d) s = takeException .overflow (takeByte d s) :=
  if_neg hd

/-! ### A missing byte or an error, in each phase -/

theorem decFirst_absent (hk : requestKind s = .upTo) :
    decFirst .empty s = finish .absent (setCount 0 s) := by
  rw [decFirst, hk]; rfl

theorem decFirst_error {a : SrcAnswer} {e : Config.IoErr} (ha : srcRead (requestKind s) a = .err e) :
    decFirst a s = takeException (.srcErr e) s := by
  rw [decFirst, ha]

theorem decMid_error {a : SrcAnswer} {e : Config.IoErr} (ha : exactRead a = .error e) :
    decMid a s = takeException (.srcErr e) s := by
  rw [decMid, ha]

theorem decLast_error {a : SrcAnswer} {e : Config.IoErr} (ha : exactRead a = .error e) :
    decLast a s = takeException (.srcErr e) s := by
  rw [decLast, ha]

/-! ### The Source's step in each phase -/

variable {a : SrcAnswer} {rest : List Move} (hs : s.schedule = .source a :: rest)
include hs

theorem step_decFirst (hp : s.phase = .decFirst) :
    step s = .next (decFirst a (setSchedule rest s)) :=
  (step_of_schedule hs).trans (sourceMove_first (by exact hp) a)

theorem step_decMid (hp : s.phase = .decMid) : step s = .next (decMid a (setSchedule rest s)) :=
  (step_of_schedule hs).trans (sourceMove_mid (by exact hp) a)

theorem step_decLast (hp : s.phase = .decLast) : step s = .next (decLast a (setSchedule rest s)) :=
  (step_of_schedule hs).trans (sourceMove_last (by exact hp) a)

end Answers

/-- A byte's payload as a word, by arithmetic (R63). -/
theorem setWidth_payload (b : Byte) : (payload b).setWidth 64 = BitVec.ofNat 64 (b.toNat % 128) := by
  rw [← toNat_payload, BitVec.ofNat_toNat]

/-- Settles O19, by whether the byte is terminal. -/
theorem firstByteStep : Obligations.FirstByteStep := by
  unfold Obligations.FirstByteStep
  intro s b rest hp hs
  rw [step_decFirst hs hp]
  split_ifs with hb
  · rw [decFirst_terminal ((terminal_iff b).2 hb), BitVec.ofNat_toNat]; rfl
  · have hacc : BitVec.ofNat 64 (b.toNat - 0x80) = (payload b).setWidth 64 := by
      rw [setWidth_payload, show b.toNat % 128 = b.toNat - 0x80 by omega]
    rw [decFirst_continuation ((terminal_eq_false_iff b).2 (by omega)), hacc]
    rfl

/-- Settles O20: the first request of a TRYDEC is UpTo, so it sees Empty. -/
theorem emptySourceUnderTrydecIsAbsent : Obligations.EmptySourceUnderTrydecIsAbsent := by
  unfold Obligations.EmptySourceUnderTrydecIsAbsent
  intro s rest hp hk hs
  have hkind : requestKind (setSchedule rest s) = .upTo := (requestKind_eq_upTo_iff _).2 ⟨hp, hk⟩
  rw [step_decFirst hs hp, decFirst_absent hkind]
  rfl

theorem requestKind_eq_exact {s : State} (h : s.opk ≠ .trydec) : requestKind s = .exact :=
  if_neg fun h' => h h'.2

/-- The answers that an Exact request sees as an error (R43). -/
theorem exactRead_eq_error {a : SrcAnswer} {e : Config.IoErr}
    (h : a = .err e ∨ (a = .empty ∧ e = .unexpectedEnd)) : exactRead a = .error e := by
  obtain rfl | ⟨rfl, rfl⟩ := h <;> rfl

/-- Settles O21: each of these answers is seen as `e` by the request of its phase. -/
theorem sourceErrorEndsTheDecode : Obligations.SourceErrorEndsTheDecode := by
  unfold Obligations.SourceErrorEndsTheDecode
  rintro s a e rest (⟨hp, ha⟩ | ⟨hp, ha⟩) hs
  · have hread : srcRead (requestKind (setSchedule rest s)) a = .err e := by
      obtain rfl | ⟨rfl, rfl, hk⟩ := ha
      · exact srcRead_err _ e
      · rw [requestKind_eq_exact (by exact hk)]; rfl
    rw [step_decFirst hs hp, decFirst_error hread]
    rfl
  · obtain hp | hp := hp
    · rw [step_decMid hs hp, decMid_error (exactRead_eq_error ha)]; rfl
    · rw [step_decLast hs hp, decLast_error (exactRead_eq_error ha)]; rfl

/-- After an interior continuation byte the phase changes once the offset is 63 (R79). -/
theorem advanceOffset_eq (s : State) :
    advanceOffset s =
      { s with off := s.off + 7, phase := if s.off + 7 = 63 then .decLast else s.phase } := by
  unfold advanceOffset
  split_ifs <;> rfl

/-- Settles O22, by whether the byte is terminal. -/
theorem interiorByteStep : Obligations.InteriorByteStep := by
  unfold Obligations.InteriorByteStep
  intro s c rest hp hs
  rw [step_decMid hs hp, ← setWidth_payload]
  by_cases hc : c.toNat < 0x80
  · rw [if_pos hc, decMid_terminal ((terminal_iff c).2 hc)]; rfl
  · rw [if_neg hc, decMid_continuation ((terminal_eq_false_iff c).2 (by omega)), advanceOffset_eq, ← hp]
    rfl

theorem shiftLeft_topBit : (1 : Word) <<< 63 = BitVec.ofNat 64 (2 ^ 63) := by decide

theorem addTopBit_eq (s : State) : addTopBit s = s.acc + BitVec.ofNat 64 (2 ^ 63) := by
  rw [addTopBit, BitVec.add_comm, shiftLeft_topBit]

/-- Settles O23, by whether the byte is 0x01. -/
theorem tenthByteOverflowCheck : Obligations.TenthByteOverflowCheck := by
  unfold Obligations.TenthByteOverflowCheck
  intro s d rest hp hs
  rw [step_decLast hs hp]
  split_ifs with hd
  · rw [hd, decLast_one, ← addTopBit_eq]; rfl
  · rw [decLast_overflow hd]; rfl

/-! ### The additions (R84) -/

/-- A word is added above the bits of another one, and no bit of it is shifted out: the sum is the OR of
the two, and it is the sum of the numbers. -/
theorem add_shiftLeft_disjoint {x y : Word} {k : Nat} (hx : x.toNat < 2 ^ k)
    (hy : y.toNat * 2 ^ k + 2 ^ k ≤ 2 ^ 64) :
    x + y <<< k = x ||| y <<< k ∧ (x + y <<< k).toNat = x.toNat + y.toNat * 2 ^ k := by
  have hshift : (y <<< k).toNat = y.toNat * 2 ^ k := by
    rw [BitVec.toNat_shiftLeft, Nat.shiftLeft_eq, Nat.mod_eq_of_lt (by omega)]
  have hsum : (x + y <<< k).toNat = x.toNat + y.toNat * 2 ^ k := by
    rw [BitVec.toNat_add, hshift, Nat.mod_eq_of_lt (by omega)]
  refine ⟨BitVec.eq_of_toNat_eq ?_, hsum⟩
  rw [hsum, BitVec.toNat_or, hshift, Nat.or_comm, ← Nat.shiftLeft_eq,
    ← Nat.shiftLeft_add_eq_or_of_lt hx, Nat.add_comm]

/-- The group of an interior byte stands above ACC's bits, and below bit 64 (R79, R84). -/
theorem addGroup_disjoint {s : State} (c : Byte) (hoff : s.off.toNat ≤ 57)
    (hacc : s.acc.toNat < 2 ^ s.off.toNat) :
    addGroup c s = s.acc ||| ((payload c).setWidth 64 <<< s.off.toNat) ∧
      (addGroup c s).toNat = s.acc.toNat + (payload c).toNat * 2 ^ s.off.toNat := by
  have hpayload : ((payload c).setWidth 64).toNat = (payload c).toNat :=
    BitVec.toNat_setWidth_of_le (by norm_num)
  rw [addGroup, ← hpayload]
  refine add_shiftLeft_disjoint hacc ?_
  calc ((payload c).setWidth 64).toNat * 2 ^ s.off.toNat + 2 ^ s.off.toNat
      ≤ 2 ^ 7 * 2 ^ s.off.toNat := by
        rw [← Nat.succ_mul, hpayload, toNat_payload]
        exact Nat.mul_le_mul_right _ (by omega)
    _ ≤ 2 ^ 64 := by
        rw [← pow_add]
        exact Nat.pow_le_pow_right (by norm_num) (by omega)

/-- Bit 63 stands above ACC's bits (R81, R84). -/
theorem addTopBit_disjoint {s : State} (hacc : s.acc.toNat < 2 ^ 63) :
    addTopBit s = s.acc ||| BitVec.ofNat 64 (2 ^ 63) ∧ (addTopBit s).toNat = s.acc.toNat + 2 ^ 63 := by
  rw [addTopBit_eq, ← shiftLeft_topBit]
  exact add_shiftLeft_disjoint (y := 1) hacc (by decide)

/-- Settles O25: R35 (c) and (d) bound ACC below the bits that are added. -/
theorem decoderAdditionsNeverCarry : Obligations.DecoderAdditionsNeverCarry := by
  unfold Obligations.DecoderAdditionsNeverCarry
  intro s c h
  constructor
  · intro hp
    obtain ⟨hoff, -, hacc⟩ := h.seq.mid hp
    have hle : s.off.toNat ≤ 57 := by simp at hoff; omega
    exact addGroup_disjoint c hle hacc
  · intro hp
    obtain ⟨-, -, hacc⟩ := h.seq.last hp
    exact addTopBit_disjoint hacc

end Sys2Proof.Proofs
end

section
/-! PROOFS. Whole decodes (41_decoder.md): the phase rules compute the functional view of the decoder (R86)
within ten answers (R85), and the decode commands complete on every accepted sequence (R88 to R91). -/

namespace Sys2Proof.Proofs

open Sys2Proof.Machine Sys2Proof.Safety Sys2Proof.Statement

/-! ### Running the Source's answers -/

section Answers

variable {s t u : State}

theorem moveAll_source_cons {a : SrcAnswer} (more : List SrcAnswer) (h : sourceMove a s = .next t) :
    moveAll ((a :: more).map .source) s = moveAll (more.map .source) t := by
  rw [List.map_cons, moveAll, move, h]

theorem moveAll_source_cons_eq_next {a : SrcAnswer} {more : List SrcAnswer}
    (h : moveAll ((a :: more).map .source) s = .next u) :
    ∃ t, sourceMove a s = .next t ∧ moveAll (more.map .source) t = .next u := by
  rw [List.map_cons, moveAll, move] at h
  split at h
  next t hm => exact ⟨t, hm, h⟩
  next => cases h
  next => cases h

/-- The answers in `used` are taken one after another; those in `left` stay scheduled. -/
theorem run_answers {used : List SrcAnswer} (left : List SrcAnswer) (rest : List Move)
    (h : moveAll (used.map .source) s = .next t) :
    Host.Core.run core used.length { s with schedule := (used ++ left).map Move.source ++ rest } =
      .next (setSchedule (left.map .source ++ rest) t) := by
  have hrun := run_schedule (used.map .source) (left.map .source ++ rest) s
  rw [h, List.length_map, ← List.append_assoc, ← List.map_append] at hrun
  exact hrun

theorem StreamsGrow.trans {taken taken' put put' : List Byte} (h : StreamsGrow taken put s t)
    (h' : StreamsGrow taken' put' t u) : StreamsGrow (taken ++ taken') (put ++ put') s u :=
  ⟨by rw [h'.srcTaken, h.srcTaken, List.append_assoc],
    by rw [h'.sinkStream, h.sinkStream, List.append_assoc]⟩

theorem bytesOf_append (as bs : List SrcAnswer) : bytesOf (as ++ bs) = bytesOf as ++ bytesOf bs :=
  List.filterMap_append

theorem bytesOf_bytes (bs : List Byte) : bytesOf (bs.map .byte) = bs := by
  simp [bytesOf, List.filterMap_map]

/-- The Source's answers change nothing of the Host's side, and consume the bytes among them. -/
theorem moveAll_source_kept {answers : List SrcAnswer} (h : moveAll (answers.map .source) s = .next t) :
    HostSideKept s t ∧ StreamsGrow (bytesOf answers) [] s t := by
  induction answers generalizing s with
  | nil =>
    cases h
    exact ⟨⟨rfl, rfl, rfl, rfl, rfl⟩, streamsGrow_of_eq rfl rfl⟩
  | cons a more ih =>
    obtain ⟨u, hm, hmore⟩ := moveAll_source_cons_eq_next h
    obtain ⟨hkept, hgrow⟩ := ih hmore
    have hfirst : HostSideKept s u := by
      rcases move_hostSide_cases (m := .source a) hm with ⟨_, hhost⟩ | hreset | hkept
      · cases hhost
      · cases hreset
      · exact hkept
    exact ⟨hfirst.trans hkept, (bytesOf_append [a] more) ▸ (streamsGrow_move (m := .source a) hm).trans hgrow⟩

end Answers

/-! ### How far a decode has come -/

/-- The next byte is an interior one or the tenth, and `n` interior bytes may come before the tenth (R79,
R81). -/
structure BeforeTenth (n : Nat) (s : State) : Prop where
  phase : s.phase = if n = 0 then .decLast else .decMid
  off : s.off.toNat + 7 * n = 63

theorem BeforeTenth.decoding {n : Nat} {s : State} (h : BeforeTenth n s) :
    decoding s.phase = true := by
  rw [h.phase]; split_ifs <;> rfl

theorem toNat_off_add {o : Offset} (h : o.toNat ≤ 56) : (o + 7).toNat = o.toNat + 7 := by
  change (o.toNat + 7) % 64 = o.toNat + 7
  omega

theorem beforeTenth_advanceOffset {n : Nat} {s : State} (h : BeforeTenth (n + 1) s) :
    BeforeTenth n (advanceOffset s) := by
  obtain ⟨hp, hoff⟩ := h
  have hnext : (s.off + 7).toNat = s.off.toNat + 7 := toNat_off_add (by omega)
  have hlast : s.off + 7 = 63 ↔ n = 0 := by
    rw [← BitVec.toNat_inj, hnext]
    change _ = 63 ↔ _
    omega
  rw [advanceOffset_eq]
  refine ⟨?_, ?_⟩
  · simp only [hlast, hp, Nat.add_one_ne_zero, if_false]
  · simp only [hnext]
    omega

/-! ### Ten answers end a decode (R85) -/

theorem deliver_phase (v : Word) (s : State) : (deliver v s).phase = .idle := by
  obtain ⟨_, _, _, _, e, -⟩ := deliver_spec s v
  rw [e]

theorem deliver_busy (v : Word) (s : State) : (deliver v s).busy = false := by
  obtain ⟨_, _, _, _, e, -⟩ := deliver_spec s v
  rw [e]

/-- A decode in progress that takes at most `n + 1` answers more: at its first request, or later. -/
def AtMostMore (n : Nat) (s : State) : Prop :=
  (n = 9 ∧ s.phase = .decFirst) ∨ BeforeTenth n s

/-- Any answer ends the decode or leads to the next byte. -/
theorem sourceMove_of_atMostMore {n : Nat} {s : State} (h : AtMostMore n s) (a : SrcAnswer) :
    ∃ t, sourceMove a s = .next t ∧ (t.phase = .idle ∨ ∃ m, n = m + 1 ∧ AtMostMore m t) := by
  obtain ⟨rfl, hp⟩ | h := h
  · refine ⟨_, sourceMove_first hp a, ?_⟩
    rcases decFirst_cases s a with ⟨b, -, -, e⟩ | ⟨b, -, -, e⟩ | ⟨-, -, e⟩ | ⟨x, -, e⟩ <;> rw [e]
    · exact .inl (deliver_phase _ _)
    · exact .inr ⟨8, rfl, .inr ⟨rfl, rfl⟩⟩
    · exact .inl rfl
    · exact .inl rfl
  cases n with
  | zero =>
    refine ⟨_, sourceMove_last h.phase a, .inl ?_⟩
    rcases decLast_cases s a with ⟨v, -, -, e⟩ | ⟨d, -, -, e⟩ | ⟨x, -, e⟩ <;> rw [e]
    · exact deliver_phase _ _
    · rfl
    · rfl
  | succ n =>
    refine ⟨_, sourceMove_mid h.phase a, ?_⟩
    rcases decMid_cases s a with ⟨c, -, -, e⟩ | ⟨c, rfl, hc, -⟩ | ⟨x, -, e⟩
    · rw [e]; exact .inl (deliver_phase _ _)
    · rw [decMid_continuation hc]
      exact .inr ⟨n, rfl, .inr (beforeTenth_advanceOffset ⟨h.phase, h.off⟩)⟩
    · rw [e]; exact .inl rfl

theorem decode_ends {n : Nat} {s : State} (h : AtMostMore n s) {answers : List SrcAnswer}
    (hlen : n < answers.length) : ∃ k t, 1 ≤ k ∧ k ≤ n + 1 ∧
      moveAll ((answers.take k).map .source) s = .next t ∧ t.phase = .idle := by
  induction answers generalizing n s with
  | nil => cases hlen
  | cons a more ih =>
    obtain ⟨t, hm, hp | ⟨m, rfl, hnext⟩⟩ := sourceMove_of_atMostMore h a
    · exact ⟨1, t, le_rfl, by omega, moveAll_source_cons [] hm, hp⟩
    · obtain ⟨k, u, -, hk, hrun, hp⟩ := ih hnext (Nat.lt_of_succ_lt_succ hlen)
      exact ⟨k + 1, u, by omega, by omega, (moveAll_source_cons _ hm).trans hrun, hp⟩

/-- Settles O27: the first request takes at most nine answers more. -/
theorem decodeEndsWithinTenAnswers : Obligations.DecodeEndsWithinTenAnswers := by
  unfold Obligations.DecodeEndsWithinTenAnswers
  intro s answers rest hp hlen
  obtain ⟨k, t, h1, h10, hrun, hidle⟩ := decode_ends (.inl ⟨rfl, hp⟩) (answers := answers) (by omega)
  have hran := run_answers (answers.drop k) rest hrun
  rw [List.take_append_drop, List.length_take, min_eq_left (by omega)] at hran
  exact ⟨k, _, h1, h10, hran, hidle, rfl⟩

/-! ### What a decode reports (R83, R86) -/

/-- What no byte on the way to a report changes: the fields the report depends on, BUSY and CODE. -/
structure DecodeKept (s t : State) : Prop where
  params : t.params = s.params
  nw : t.nw = s.nw
  result : t.result = s.result
  err : t.err = s.err
  draws : t.draws = s.draws
  busy : t.busy = s.busy
  code : t.code = s.code

/-- A decode has ended with the report of `o`. -/
structure Reported (o : DecOutcome) (s t : State) : Prop where
  report : decodeReport o s t
  busy : t.busy = false
  phase : t.phase = .idle

/-- A report depends on the state before it only in these fields. -/
theorem decodeReport_of_eq {o : DecOutcome} {s s' t : State} (h : decodeReport o s' t)
    (hparams : s'.params = s.params) (hnw : s'.nw = s.nw) (hresult : s'.result = s.result)
    (herr : s'.err = s.err) (hdraws : s'.draws = s.draws) : decodeReport o s t := by
  cases o <;> simpa only [decodeReport, hparams, hnw, hresult, herr, hdraws] using h

section Reports

variable {o : DecOutcome} {s t u : State}

theorem DecodeKept.trans (h : DecodeKept s t) (h' : DecodeKept t u) : DecodeKept s u :=
  ⟨h'.params.trans h.params, h'.nw.trans h.nw, h'.result.trans h.result, h'.err.trans h.err,
    h'.draws.trans h.draws, h'.busy.trans h.busy, h'.code.trans h.code⟩

theorem DecodeKept.reported (hk : DecodeKept s t) (h : Reported o t u) : Reported o s u :=
  ⟨decodeReport_of_eq h.report hk.params hk.nw hk.result hk.err hk.draws, h.busy, h.phase⟩

theorem decodeKept_takeByte (b : Byte) (s : State) : DecodeKept s (takeByte b s) :=
  ⟨rfl, rfl, rfl, rfl, rfl, rfl, rfl⟩

theorem decodeKept_takeGroup (b : Byte) (v : Word) (s : State) :
    DecodeKept s (setAcc v (takeByte b s)) :=
  ⟨rfl, rfl, rfl, rfl, rfl, rfl, rfl⟩

theorem decodeKept_advanceOffset (s : State) : DecodeKept s (advanceOffset s) := by
  rw [advanceOffset_eq]
  exact ⟨rfl, rfl, rfl, rfl, rfl, rfl, rfl⟩

theorem decodeKept_firstGroup (b : Byte) (v : Word) (s : State) :
    DecodeKept s (setPhase .decMid (setOff 7 (setAcc v (takeByte b s)))) := by
  constructor <;> simp

theorem reported_absent (s : State) : Reported .absent s (finish .absent (setCount 0 s)) :=
  ⟨⟨rfl, rfl, rfl, rfl⟩, rfl, rfl⟩

theorem reported_takeException_srcErr (e : Config.IoErr) (s : State) :
    Reported (.srcErr e) s (takeException (.srcErr e) s) :=
  ⟨⟨rfl, rfl, rfl, rfl⟩, rfl, rfl⟩

theorem reported_takeException_overflow (s : State) :
    Reported .overflow s (takeException .overflow s) :=
  ⟨⟨rfl, rfl, rfl, rfl⟩, rfl, rfl⟩

theorem reported_deliver (v : Word) (s : State) :
    Reported (.ok v.toNat s.cnt.toNat) s (deliver v s) := by
  refine ⟨?_, deliver_busy v s, deliver_phase v s⟩
  rw [decodeReport, deliveryAndNarrowing v s, ← nativeTrunc_eq_lowBits]
  split_ifs
  · exact ⟨rfl, rfl, rfl, rfl⟩
  · exact ⟨rfl, rfl, rfl, rfl⟩
  · exact ⟨rfl, toNat_nativeTrunc _ v, rfl, rfl⟩

end Reports

/-! ### The phase rules and the functional view (R86) -/

/-- The Source's answers, made from `s`, come to `r`: exactly the answers used end the decode with the
report of the outcome, and where they run out the decode goes on. -/
def DecodesAs (s : State) (answers : List SrcAnswer) : Option (DecOutcome × List SrcAnswer) → Prop
  | some (o, left) => ∃ used t, answers = used ++ left ∧
      moveAll (used.map .source) s = .next t ∧ Reported o s t
  | none => ∃ t, moveAll (answers.map .source) s = .next t ∧ decoding t.phase = true ∧ DecodeKept s t

section DecodesAs

variable {s t : State} {a : SrcAnswer} {more : List SrcAnswer}

theorem decodesAs_nil (h : decoding s.phase = true) : DecodesAs s [] none :=
  ⟨s, rfl, h, ⟨rfl, rfl, rfl, rfl, rfl, rfl, rfl⟩⟩

theorem decodesAs_last {o : DecOutcome} (hm : sourceMove a s = .next t) (h : Reported o s t) :
    DecodesAs s (a :: more) (some (o, more)) :=
  ⟨[a], t, rfl, moveAll_source_cons _ hm, h⟩

theorem decodesAs_cons {r : Option (DecOutcome × List SrcAnswer)} (hm : sourceMove a s = .next t)
    (hk : DecodeKept s t) (h : DecodesAs t more r) : DecodesAs s (a :: more) r := by
  cases r with
  | none =>
    obtain ⟨u, hrun, hp, hku⟩ := h
    exact ⟨u, (moveAll_source_cons _ hm).trans hrun, hp, hk.trans hku⟩
  | some ol =>
    obtain ⟨used, u, rfl, hrun, hr⟩ := h
    exact ⟨a :: used, u, rfl, (moveAll_source_cons _ hm).trans hrun, hk.reported hr⟩

end DecodesAs

/-- A source error at any request after the first, a missing byte included (R80, R82). -/
theorem sourceMove_error {n : Nat} {s : State} {a : SrcAnswer} {e : Config.IoErr} (h : BeforeTenth n s)
    (ha : exactRead a = .error e) : sourceMove a s = .next (takeException (.srcErr e) s) := by
  cases n with
  | zero => rw [sourceMove_last h.phase, decLast_error ha]
  | succ n => rw [sourceMove_mid h.phase, decMid_error ha]

theorem outcomeLoop_error {a : SrcAnswer} {e : Config.IoErr} (ha : exactRead a = .error e)
    (acc off i : Nat) (more : List SrcAnswer) :
    outcomeLoop acc off i (a :: more) = some (.srcErr e, more) := by
  rw [outcomeLoop, ha]

theorem exactRead_eq_ok {a : SrcAnswer} {c : Byte} (h : exactRead a = .ok c) : a = .byte c := by
  cases a <;> cases h
  rfl

/-- The block stands where `loop` of R86 does with `acc`, `off` and `i`, and `n` interior bytes may come
before the tenth. -/
structure AtLoop (n acc off i : Nat) (s : State) : Prop where
  before : BeforeTenth n s
  acc_eq : s.acc.toNat = acc
  off_eq : s.off.toNat = off
  cnt_eq : s.cnt.toNat + 1 = i
  acc_lt : acc < 2 ^ off
  length : i + n = 10

section AtLoop

variable {n acc off i : Nat} {s : State}

theorem AtLoop.acc_bound (h : AtLoop n acc off i s) : s.acc.toNat < 2 ^ s.off.toNat := by
  rw [h.acc_eq, h.off_eq]; exact h.acc_lt

theorem AtLoop.toNat_cnt (h : AtLoop n acc off i s) : (s.cnt + 1).toNat = i := by
  have hi := h.cnt_eq
  have hlen := h.length
  rw [toNat_succ_of_le (by omega), hi]

theorem AtLoop.toNat_addGroup (h : AtLoop (n + 1) acc off i s) (c : Byte) :
    (addGroup c s).toNat = acc + (payload c).toNat * 2 ^ off := by
  have hoff := h.before.off
  rw [(addGroup_disjoint c (by omega) h.acc_bound).2, h.acc_eq, h.off_eq]

/-- An interior continuation byte leads to the next turn of the loop (R79). -/
theorem AtLoop.next (h : AtLoop (n + 1) acc off i s) (c : Byte) :
    AtLoop n (acc + (payload c).toNat * 2 ^ off) (off + 7) (i + 1)
      (advanceOffset (setAcc (addGroup c s) (takeByte c s))) := by
  have hoff := h.before.off
  have hlen := h.length
  have hnext : (s.off + 7).toNat = off + 7 := by rw [toNat_off_add (by omega), h.off_eq]
  have hbefore : BeforeTenth n (advanceOffset (setAcc (addGroup c s) (takeByte c s))) :=
    beforeTenth_advanceOffset ⟨h.before.phase, hoff⟩
  have hlt : acc + (payload c).toNat * 2 ^ off < 2 ^ (off + 7) := by
    rw [← h.toNat_addGroup c, ← h.off_eq]
    exact toNat_addGroup_lt c h.acc_bound
  rw [advanceOffset_eq] at hbefore ⊢
  exact ⟨hbefore, h.toNat_addGroup c, hnext, congrArg (· + 1) h.toNat_cnt, hlt, by omega⟩

/-- The tenth byte in the loop (R81). -/
theorem AtLoop.decodesAs_tenth (h : AtLoop 0 acc off i s) (c : Byte) (more : List SrcAnswer) :
    DecodesAs s (.byte c :: more) (outcomeLoop acc off i (.byte c :: more)) := by
  have hm := sourceMove_last h.before.phase (.byte c)
  obtain rfl : off = 63 := h.off_eq.symm.trans h.before.off
  obtain rfl : i = 10 := h.length
  rw [outcomeLoop_tenth]
  by_cases hc : c = 0x01
  · have hacc := (addTopBit_disjoint (h.acc_eq.trans_lt h.acc_lt)).2
    have hrep := reported_deliver (addTopBit s) (setAcc (addTopBit s) (takeByte 0x01 s))
    rw [hacc, h.acc_eq, setAcc_cnt, takeByte_cnt, h.toNat_cnt] at hrep
    rw [hc, decLast_one] at hm
    rw [hc, if_pos rfl]
    exact decodesAs_last hm ((decodeKept_takeGroup _ _ s).reported hrep)
  · rw [decLast_overflow hc] at hm
    rw [if_neg hc]
    exact decodesAs_last hm ((decodeKept_takeByte c s).reported (reported_takeException_overflow _))

/-- An interior byte in the loop, where what follows it decodes as the loop goes on (R79). -/
theorem AtLoop.decodesAs_interior (h : AtLoop (n + 1) acc off i s) (c : Byte) (more : List SrcAnswer)
    (hmore : DecodesAs (advanceOffset (setAcc (addGroup c s) (takeByte c s))) more
      (outcomeLoop (acc + (payload c).toNat * 2 ^ off) (off + 7) (i + 1) more)) :
    DecodesAs s (.byte c :: more) (outcomeLoop acc off i (.byte c :: more)) := by
  have hm := sourceMove_mid h.before.phase (.byte c)
  have hinterior : off ≠ 63 := by
    have hoff := h.before.off
    rw [h.off_eq] at hoff
    omega
  cases hc : terminal c
  · rw [decMid_continuation hc] at hm
    rw [outcomeLoop_continuation hinterior hc]
    exact decodesAs_cons hm ((decodeKept_takeGroup _ _ s).trans (decodeKept_advanceOffset _)) hmore
  · have hrep := reported_deliver (addGroup c s) (setAcc (addGroup c s) (takeByte c s))
    rw [h.toNat_addGroup, setAcc_cnt, takeByte_cnt, h.toNat_cnt] at hrep
    rw [decMid_terminal hc] at hm
    rw [outcomeLoop_terminal hinterior hc]
    exact decodesAs_last hm ((decodeKept_takeGroup _ _ s).reported hrep)

end AtLoop

/-- From any turn of the loop, by induction on the answers: the block and the loop split alike on each. -/
theorem decodesAs_outcomeLoop (answers : List SrcAnswer) {n acc off i : Nat} {s : State}
    (h : AtLoop n acc off i s) : DecodesAs s answers (outcomeLoop acc off i answers) := by
  induction answers generalizing n acc off i s with
  | nil => exact decodesAs_nil h.before.decoding
  | cons a more ih =>
    cases ha : exactRead a with
    | error e =>
      rw [outcomeLoop_error ha]
      exact decodesAs_last (sourceMove_error h.before ha) (reported_takeException_srcErr e s)
    | ok c =>
      obtain rfl := exactRead_eq_ok ha
      cases n with
      | zero => exact h.decodesAs_tenth c more
      | succ n => exact h.decodesAs_interior c more (ih (h.next c))

/-- The first byte of a longer varint leads into the loop (R76). -/
theorem atLoop_first {b : Byte} {s : State} (hcnt : s.cnt = 0) :
    AtLoop 8 (payload b).toNat 7 2
      (setPhase .decMid (setOff 7 (setAcc ((payload b).setWidth 64) (takeByte b s)))) where
  before := ⟨rfl, rfl⟩
  acc_eq := BitVec.toNat_setWidth_of_le (by norm_num)
  off_eq := rfl
  cnt_eq := by simp [hcnt]
  acc_lt := by rw [toNat_payload]; omega
  length := rfl

/-- The phase rules compute the functional view (R86), from the first request on. -/
theorem decodesAs_outcome (answers : List SrcAnswer) {s : State} (hp : s.phase = .decFirst)
    (hcnt : s.cnt = 0) : DecodesAs s answers (outcome (requestKind s) answers) := by
  cases answers with
  | nil => exact decodesAs_nil (by rw [hp]; rfl)
  | cons a more =>
    have hm := sourceMove_first hp a
    rcases decFirst_cases s a with ⟨b, rfl, hb, e⟩ | ⟨b, rfl, hb, -⟩ | ⟨rfl, hk, -⟩ | ⟨x, ha, e⟩
    · have hout : outcome (requestKind s) (.byte b :: more) = some (.ok b.toNat 1, more) := by
        simp only [outcome, srcRead_byte, if_pos ((terminal_iff b).1 hb)]
      have hone : (takeByte b s).cnt.toNat = 1 := by simp [hcnt]
      have hrep := reported_deliver (b.setWidth 64) (takeByte b s)
      rw [BitVec.toNat_setWidth_of_le (by norm_num), hone] at hrep
      rw [e] at hm
      rw [hout]
      exact decodesAs_last hm ((decodeKept_takeByte b s).reported hrep)
    · have hout : outcome (requestKind s) (.byte b :: more) =
          outcomeLoop (payload b).toNat 7 2 more := by
        simp only [outcome, srcRead_byte, if_neg ((terminal_eq_false_iff b).1 hb).not_gt]
      rw [decFirst_continuation hb] at hm
      rw [hout]
      exact decodesAs_cons hm (decodeKept_firstGroup b _ s)
        (decodesAs_outcomeLoop more (atLoop_first hcnt))
    · rw [decFirst_absent hk] at hm
      rw [hk]
      exact decodesAs_last hm (reported_absent s)
    · have hread : srcRead (requestKind s) a = .err x := by
        obtain rfl | ⟨rfl, hk, rfl⟩ := ha
        · exact srcRead_err _ x
        · rw [hk]; rfl
      have hout : outcome (requestKind s) (a :: more) = some (.srcErr x, more) := by
        simp only [outcome, hread]
      rw [hout]
      exact decodesAs_last (e ▸ hm) (reported_takeException_srcErr x s)

/-- Settles O26, by `decodesAs_outcome`; what the answers leave alone is `moveAll_source_kept`. -/
theorem decodePhasesComputeOutcome : Obligations.DecodePhasesComputeOutcome := by
  unfold Obligations.DecodePhasesComputeOutcome
  intro s answers rest hp hcnt
  have h := decodesAs_outcome answers hp hcnt
  constructor
  · intro o left ho
    rw [ho] at h
    obtain ⟨used, t, rfl, hrun, hrep⟩ := h
    obtain ⟨hkept, hgrow⟩ := moveAll_source_kept hrun
    have hlen : (used ++ left).length - left.length = used.length := by simp
    rw [hlen, List.take_left]
    exact ⟨_, run_answers left rest hrun, hrep.report, hrep.busy, hrep.phase, hgrow.srcTaken, rfl,
      hkept.params, hkept.operand, hkept.cmdLost, by simpa using hgrow.sinkStream, hkept.hostReads⟩
  · intro ho
    rw [ho] at h
    obtain ⟨t, hrun, hdec, hkept⟩ := h
    have hran := run_answers [] rest hrun
    rw [List.append_nil] at hran
    exact ⟨_, hran, hdec, hkept.busy, hkept.code, hkept.result⟩

/-! ### The decode commands (R88 to R91) -/

/-- An accepted sequence decodes to its value and length, whatever the kind of the first request (R67). -/
theorem outcome_of_accepted (kind : RequestKind) {bs : List Byte} (h : Accepted bs) :
    outcome kind (bs.map .byte) = some (.ok (varintValue bs) bs.length, []) :=
  (acceptedSequencesAreThoseDecodedOk kind _ [] _ _).2 ⟨bs, by simp, h, rfl, rfl⟩

/-- An accepted decode waits for its first byte (R60). -/
theorem accept_decode {k : Op} (hk : k = .dec ∨ k = .trydec) (n : Bool) (s : State) :
    accept k n s = { s with cmdLost := false, err := none, opk := k, nw := n, code := .none, count := 0,
                            cnt := 0, busy := true, phase := .decFirst } := by
  obtain rfl | rfl := hk <;> rfl

/-- Settles O30: the accept step leads to the first request with CNT 0, and O26 goes on from there. -/
theorem decodeCommandsCompleteOnAcceptedBytes : Obligations.DecodeCommandsCompleteOnAcceptedBytes := by
  unfold Obligations.DecodeCommandsCompleteOnAcceptedBytes
  intro s bs rest i hi hp hbs
  have hk : kindOf i = .dec ∨ kindOf i = .trydec := by
    rcases hi with rfl | rfl | rfl | rfl <;> simp [kindOf]
  have hn : nativeOf i = (i == .decN || i == .trydecN) := by
    rcases hi with rfl | rfl | rfl | rfl <;> rfl
  have hx := exec_idle hp i
  have ht := accept_decode hk (nativeOf i) s
  generalize accept (kindOf i) (nativeOf i) s = t at hx ht
  obtain ⟨u, hrun, hrep, hbusy, hphase, htaken, hsched, hparams, hoperand, hlost, hsink, hreads⟩ :=
    (decodePhasesComputeOutcome t (bs.map .byte) rest (by rw [ht]) (by rw [ht])).1 _ _
      (outcome_of_accepted _ hbs)
  subst ht
  rw [List.length_nil, Nat.sub_zero, List.length_map, List.map_map] at hrun
  rw [List.length_nil, Nat.sub_zero, List.take_length, bytesOf_bytes] at htaken
  exact ⟨_, u, hx, hrun, decodeReport_of_eq hrep rfl hn rfl rfl rfl, hbusy, hphase, hlost, htaken,
    hoperand, hparams, hsink, hreads, hsched⟩

end Sys2Proof.Proofs
end

section
/-! PROOFS. The round trip (41_decoder.md): the bytes of `enc v` (R95) are an accepted sequence of value `v`,
and a decode takes them from a ListSource (R47, R87). -/

namespace Sys2Proof.Proofs

open Sys2Proof.Machine Sys2Proof.Safety Sys2Proof.Statement

/-! ### The bytes of an encoding (R92, R95) -/

theorem toNat_payload_offeredByte (v : Word) : (payload (offeredByte v)).toNat = v.toNat % 2 ^ 7 := by
  rw [toNat_payload, toNat_offeredByte]
  split_ifs <;> omega

/-- The continuation bit is set while bits remain (R92). -/
theorem terminal_offeredByte_iff (v : Word) : terminal (offeredByte v) = true ↔ afterGroup v = 0 := by
  rw [terminal_iff, toNat_offeredByte, afterGroup_eq_zero_iff]
  split_ifs <;> omega

theorem varintValue_encUpTo {n : Nat} {v : Word} (hv : v.toNat < 2 ^ (7 * n)) :
    varintValue (encUpTo n v) = v.toNat := by
  induction n generalizing v with
  | zero =>
    have hzero : v.toNat = 0 := Nat.lt_one_iff.1 hv
    rw [hzero]; rfl
  | succ n ih =>
    have hvalue : v.toNat = (payload (offeredByte v)).toNat + 2 ^ 7 * (afterGroup v).toNat := by
      rw [toNat_payload_offeredByte, toNat_afterGroup, Nat.mod_add_div]
    by_cases hz : afterGroup v = 0
    · rw [encUpTo, if_pos hz, hvalue, hz]; rfl
    · have hmore : (afterGroup v).toNat < 2 ^ (7 * n) := by
        rw [toNat_afterGroup, Nat.div_lt_iff_lt_mul (by norm_num), ← pow_add]
        exact hv
      rw [encUpTo, if_neg hz, varintValue, ih hmore, ← hvalue]

/-- With `n` bytes before the tenth, a tenth byte holds one bit, and it is not 0 as bits remain for it. -/
theorem acceptedWithin_encUpTo {n : Nat} {v : Word} (hv : v.toNat < 2 ^ (7 * n + 1))
    (hbits : n = 0 → v ≠ 0) : AcceptedWithin n (encUpTo (n + 1) v) := by
  induction n generalizing v with
  | zero =>
    have hone : v = 1 := by
      have hne : v.toNat ≠ 0 := fun h => hbits rfl (BitVec.eq_of_toNat_eq h)
      exact BitVec.eq_of_toNat_eq (show v.toNat = 1 by omega)
    rw [hone]
    exact (acceptedWithin_zero_cons _ _).2 ⟨rfl, rfl⟩
  | succ n ih =>
    by_cases hz : afterGroup v = 0
    · rw [encUpTo, if_pos hz]
      exact (acceptedWithin_succ_cons_terminal ((terminal_offeredByte_iff v).2 hz) _ _).2 rfl
    · have hc : terminal (offeredByte v) = false :=
        Bool.eq_false_iff.2 fun h => hz ((terminal_offeredByte_iff v).1 h)
      have hmore : (afterGroup v).toNat < 2 ^ (7 * n + 1) := by
        rw [toNat_afterGroup, Nat.div_lt_iff_lt_mul (by norm_num), ← pow_add]
        exact hv
      rw [encUpTo, if_neg hz]
      exact (acceptedWithin_succ_cons hc _ _).2 (ih hmore fun _ => hz)

theorem varintValue_enc (v : Word) : varintValue (enc v) = v.toNat :=
  varintValue_encUpTo (v.isLt.trans (by norm_num))

theorem accepted_enc (v : Word) : Accepted (enc v) :=
  (accepted_iff _).2 (acceptedWithin_encUpTo v.isLt (by simp))

/-! ### The Source's turns (R47) -/

/-- The Source's turn while its move is enabled. -/
theorem sourceTurn {y : System} {t : State} (h : sourceMove y.source.answer y.block = .next t) :
    y.turn .source = .next { y with block := t, source := y.source.afterAnswer } := by
  simp only [System.turn, stepWith_eq_move, move, h, onNext]

/-- A ListSource that does not fail gives its bytes one a turn. -/
theorem run_listSource {y : System} {bs more : List Byte} {n : Nat} {t : State}
    (hsrc : y.source = ⟨bs ++ more, none, n⟩)
    (h : moveAll ((bs.map SrcAnswer.byte).map .source) y.block = .next t) :
    y.run (List.replicate bs.length .source) =
      .next { y with block := t, source := ⟨more, none, n + bs.length⟩ } := by
  induction bs generalizing y n with
  | nil =>
    cases h
    cases y
    cases hsrc
    rfl
  | cons b bs ih =>
    obtain ⟨u, hm, hmore⟩ := moveAll_source_cons_eq_next h
    have hans : y.source.answer = .byte b := by rw [hsrc]; rfl
    have hafter : y.source.afterAnswer = ⟨bs ++ more, none, n + 1⟩ := by rw [hsrc]; rfl
    have hturn := sourceTurn (y := y) (by rw [hans]; exact hm)
    rw [hafter] at hturn
    rw [List.length_cons, List.replicate_succ, system_run_cons _ hturn, ih rfl hmore,
      Nat.add_right_comm, Nat.add_assoc]

/-- Settles O31: the accept step leads to the first request, and the encoded bytes, an accepted sequence,
decode to their value (R86). -/
theorem roundTrip : Obligations.RoundTrip := by
  unfold Obligations.RoundTrip
  intro y v more n hp hprog hsrc
  have hx : exec .dec64 y.block = .next (accept .dec false y.block) := exec_idle hp .dec64
  have hcomes := decodesAs_outcome ((enc v).map .byte) (s := accept .dec false y.block) rfl rfl
  rw [outcome_of_accepted _ (accepted_enc v)] at hcomes
  obtain ⟨used, t, hused, hrun, hrep⟩ := hcomes
  rw [List.append_nil] at hused
  rw [← hused] at hrun
  have hturns := run_listSource
    (y := { y with block := accept .dec false y.block, program := [] }) hsrc hrun
  rw [lengthEqualsEncodedBytes v] at hturns
  have hreport := hrep.report
  rw [varintValue_enc, lengthEqualsEncodedBytes v, decodeReport, if_pos (.inl rfl)] at hreport
  obtain ⟨hcode, hresult, hcount, -⟩ := hreport
  exact ⟨_, (system_run_cons _ (hostTurn_issue hprog hx)).trans hturns, hcode,
    BitVec.eq_of_toNat_eq hresult, hcount, hrep.busy, rfl⟩

end Sys2Proof.Proofs
end

section
/-! PROOFS. The Encoder (42_encoder.md): the offered byte (R92), the Sink's answers (R93, R94), the encoding's
recursion (R95), its acceptance and minimality (R97), and whole encodes (R98, R99). -/

namespace Sys2Proof.Proofs

open Sys2Proof.Machine Sys2Proof.Statement

/-! ### The offered byte and the recursion of the encoding (R92, R95) -/

theorem toNat_div_eq_zero_iff (v : Word) : v.toNat / 2 ^ 7 = 0 ↔ afterGroup v = 0 := by
  rw [afterGroup_eq_zero_iff, Nat.div_eq_zero_iff_lt (by norm_num)]

theorem afterGroup_eq_ofNat (v : Word) : afterGroup v = BitVec.ofNat 64 (v.toNat / 2 ^ 7) := by
  rw [← toNat_afterGroup, BitVec.ofNat_toNat, BitVec.setWidth_eq]

/-- The last byte is the remaining value itself (R92). -/
theorem offeredByte_last {v : Word} (h : afterGroup v = 0) : offeredByte v = BitVec.ofNat 8 v.toNat := by
  have hbyte := toNat_offeredByte v
  rw [if_pos ((afterGroup_eq_zero_iff v).1 h)] at hbyte
  rw [← hbyte, BitVec.ofNat_toNat, BitVec.setWidth_eq]

/-- Any other byte is the low group with bit 7 set (R92). -/
theorem offeredByte_more {v : Word} (h : afterGroup v ≠ 0) :
    offeredByte v = BitVec.ofNat 8 (v.toNat % 2 ^ 7 + 2 ^ 7) := by
  have hbyte := toNat_offeredByte v
  rw [if_neg fun hlt => h ((afterGroup_eq_zero_iff v).2 hlt)] at hbyte
  change _ = v.toNat % 2 ^ 7 + 2 ^ 7 at hbyte
  rw [← hbyte, BitVec.ofNat_toNat, BitVec.setWidth_eq]

/-- Settles O33, by `toNat_offeredByte`. -/
theorem offeredByteByArithmetic : Obligations.OfferedByteByArithmetic := by
  unfold Obligations.OfferedByteByArithmetic
  intro v
  simp only [toNat_div_eq_zero_iff, afterGroup_eq_zero_iff]
  exact toNat_offeredByte v

/-- Settles O36: `enc_eq`, with the byte and what remains as numbers. -/
theorem encodingRecursion : Obligations.EncodingRecursion := by
  unfold Obligations.EncodingRecursion
  intro v
  rw [enc_eq, ← afterGroup_eq_ofNat]
  simp only [toNat_div_eq_zero_iff]
  split_ifs with hz
  · rw [offeredByte_last hz]
  · rw [offeredByte_more hz]

/-! ### The Sink's answers (R93, R94) -/

section Emit

variable {s : State}

theorem encEmit_ok_last (h : afterGroup s.rem = 0) : encEmit .ok s = finishCounted (emitByte s) :=
  if_pos h

theorem encEmit_ok_more (h : afterGroup s.rem ≠ 0) : encEmit .ok s = emitByte s :=
  if_neg h

theorem step_encEmit {a : SinkAnswer} {rest : List Move} (hp : s.phase = .encEmit)
    (hs : s.schedule = .sink a :: rest) : step s = .next (encEmit a (setSchedule rest s)) :=
  (step_of_schedule hs).trans (sinkMove_enabled (by exact hp) a)

end Emit

/-- Settles O34, by whether bits remain after the byte. -/
theorem sinkAcceptsStep : Obligations.SinkAcceptsStep := by
  unfold Obligations.SinkAcceptsStep
  intro s rest hp hs
  rw [step_encEmit hp hs]
  simp only [← afterGroup_eq_zero_iff, ← afterGroup_eq_ofNat]
  split_ifs with hz
  · rw [encEmit_ok_last (by exact hz), ← offeredByte_last hz, ← hz]
    rfl
  · rw [encEmit_ok_more (by exact hz), ← offeredByte_more hz]
    rfl

/-- Settles O35: the error is the exception SINK_ERR. -/
theorem sinkFailsStep : Obligations.SinkFailsStep := by
  unfold Obligations.SinkFailsStep
  intro s e rest hp hs
  rw [step_encEmit hp hs]
  rfl

/-! ### The encoding is accepted and minimal (R97) -/

theorem offeredByte_ne_zero {v : Word} (hv : v ≠ 0) : offeredByte v ≠ 0 := by
  have hpos : v.toNat ≠ 0 := fun h => hv (BitVec.eq_of_toNat_eq h)
  intro h
  have hzero : (offeredByte v).toNat = 0 := congrArg BitVec.toNat h
  rw [toNat_offeredByte] at hzero
  split_ifs at hzero
  exact hpos hzero

/-- While the remaining value is not 0 no offered byte is 0: more bits set its bit 7, and the last group
holds the highest set bit. -/
theorem zero_notMem_encUpTo (n : Nat) {v : Word} (hv : v ≠ 0) : 0 ∉ encUpTo n v := by
  induction n generalizing v with
  | zero => exact List.not_mem_nil
  | succ n ih =>
    have hbyte : 0 ≠ offeredByte v := (offeredByte_ne_zero hv).symm
    by_cases hz : afterGroup v = 0
    · rw [encUpTo, if_pos hz, List.mem_singleton]
      exact hbyte
    · rw [encUpTo, if_neg hz]
      exact List.not_mem_cons_of_ne_of_not_mem hbyte (ih hz)

theorem one_le_length_of_accepted {bs : List Byte} (h : Accepted bs) : 1 ≤ bs.length := by
  obtain ⟨hone, -, -⟩ | ⟨hten, -, -⟩ := h <;> omega

/-- An accepted sequence of ten bytes ends in 0x01 (R66, R67). -/
theorem getLast?_of_accepted {bs : List Byte} (h : Accepted bs) (hlen : bs.length = 10) :
    bs.getLast? = some 0x01 := by
  obtain ⟨-, hnine, -⟩ | ⟨-, -, hlast⟩ := h
  · omega
  · exact hlast

/-- Each byte holds 7 bits of the value, so no accepted sequence is shorter than its value's length. -/
theorem len7_le_length_of_accepted {v : Word} {bs : List Byte} (h : Accepted bs)
    (hv : varintValue bs = v.toNat) : len7 v ≤ bs.length :=
  (len7_le_iff v _ (one_le_length_of_accepted h)).2 (hv ▸ varintValue_lt bs)

/-- Settles O38, by the lemmas on encodings and on accepted sequences. -/
theorem encodingIsMinimalAndAccepted : Obligations.EncodingIsMinimalAndAccepted := by
  unfold Obligations.EncodingIsMinimalAndAccepted
  intro v
  refine ⟨accepted_enc v, varintValue_enc v,
    fun hv hlast => zero_notMem_encUpTo 10 hv (List.mem_of_getLast? hlast),
    getLast?_of_accepted (accepted_enc v), fun bs hbs hvalue => ?_⟩
  rw [lengthEqualsEncodedBytes v]
  exact len7_le_length_of_accepted hbs hvalue

/-! ### Whole encodes (R98, R99) -/

/-- The end of an encode whose every byte the Sink accepts: the stream has all bytes of the remaining value,
and COUNT reports them with those counted before. -/
def emitAll (s : State) : State :=
  { s with sinkStream := s.sinkStream ++ enc s.rem
           cnt := s.cnt + BitVec.ofNat 4 (len7 s.rem)
           count := s.cnt + BitVec.ofNat 4 (len7 s.rem)
           rem := 0
           code := .ok
           busy := false
           phase := .idle }

section EmitAll

variable {s : State}

theorem finishCounted_emitByte (h : afterGroup s.rem = 0) : finishCounted (emitByte s) = emitAll s := by
  rw [emitAll, enc_eq, if_pos h, len7_of_afterGroup_eq_zero _ h, ← h]
  rfl

theorem emitAll_emitByte (h : afterGroup s.rem ≠ 0) : emitAll (emitByte s) = emitAll s := by
  have hstream : (emitByte s).sinkStream ++ enc (emitByte s).rem = s.sinkStream ++ enc s.rem := by
    rw [enc_eq s.rem, if_neg h]
    exact List.append_assoc _ _ _
  have hcnt : (emitByte s).cnt + BitVec.ofNat 4 (len7 (emitByte s).rem) =
      s.cnt + BitVec.ofNat 4 (len7 s.rem) := by
    rw [len7_afterGroup _ h, Nat.add_comm, BitVec.ofNat_add, ← BitVec.add_assoc]
    rfl
  simp only [emitAll, hstream, hcnt]
  rfl

/-- An encode takes one Ok for each byte of the remaining value, by induction on their number. -/
theorem moveAll_sink_ok {n : Nat} (hp : s.phase = .encEmit) (hn : len7 s.rem = n) :
    moveAll (List.replicate n (.sink .ok)) s = .next (emitAll s) := by
  induction n generalizing s with
  | zero =>
    have hone := one_le_len7 s.rem
    omega
  | succ n ih =>
    have hm : move (.sink .ok) s = .next (encEmit .ok s) := sinkMove_enabled hp _
    rw [List.replicate_succ, moveAll, hm]
    by_cases hz : afterGroup s.rem = 0
    · obtain rfl : n = 0 := by
        rw [len7_of_afterGroup_eq_zero _ hz] at hn
        omega
      rw [encEmit_ok_last hz, finishCounted_emitByte hz]
      rfl
    · have hlen : len7 (emitByte s).rem = n := by
        rw [len7_afterGroup _ hz] at hn
        exact Nat.succ_inj.1 hn
      rw [encEmit_ok_more hz, ← emitAll_emitByte hz]
      exact ih hp hlen

theorem run_sink_ok (rest : List Move) (hp : s.phase = .encEmit) :
    Host.Core.run core (len7 s.rem)
        { s with schedule := List.replicate (len7 s.rem) (.sink .ok) ++ rest } =
      .next (setSchedule rest (emitAll s)) := by
  have hrun := run_schedule (List.replicate (len7 s.rem) (.sink .ok)) rest s
  rw [List.length_replicate, moveAll_sink_ok hp rfl] at hrun
  exact hrun

end EmitAll

/-- ENC.64 and ENC.N latch the operand of O39 into REM (R59, R60). -/
theorem exec_enc {s : State} {i : Instr} {v : Word} (hp : s.phase = .idle)
    (hi : (i = .enc64 ∧ v = s.operand) ∨ (i = .encN ∧ v = lowBits s.params.nativeWidth s.operand)) :
    ∃ n, exec i s = .next (accept .enc n s) ∧ (accept .enc n s).rem = v := by
  obtain ⟨rfl, rfl⟩ | ⟨rfl, rfl⟩ := hi
  · exact ⟨false, exec_idle hp .enc64, rfl⟩
  · exact ⟨true, exec_idle hp .encN, nativeTrunc_eq_lowBits _ _⟩

theorem toNat_count_len7 (v : Word) : ((0 : Count) + BitVec.ofNat 4 (len7 v)).toNat = len7 v := by
  have hle := len7_le_ten v
  rw [zero_add, BitVec.toNat_ofNat, Nat.mod_eq_of_lt (by omega)]

/-- Settles O39: the accept step latches the operand into REM with CNT 0, and `run_sink_ok` goes on from
there. -/
theorem encodeCommandsComplete : Obligations.EncodeCommandsComplete := by
  unfold Obligations.EncodeCommandsComplete
  intro s i v rest hp hi
  obtain ⟨n, hx, rfl⟩ := exec_enc hp hi
  exact ⟨_, _, hx, run_sink_ok rest rfl, rfl, rfl, toNat_count_len7 _, rfl, rfl, rfl, rfl, rfl, rfl, rfl,
    rfl, rfl, rfl⟩

end Sys2Proof.Proofs
end

section
/-! PROOFS. Exceptions and several blocks (60_exceptions.md): what entry to an exception changes (R105), and
that blocks side by side, each with its own streams, are independent (R111). -/

namespace Sys2Proof.Proofs

open Sys2Proof.Machine Sys2Proof.Statement

/-- Settles O41: entry to an exception is exactly its record updates. -/
theorem exceptionEntry : Obligations.ExceptionEntry := by
  unfold Obligations.ExceptionEntry
  exact fun _ _ => ⟨rfl, rfl, rfl, rfl, rfl⟩

/-! ### Blocks side by side (R111) -/

theorem onNext_eq_next_iff {α β φ ρ : Type} {f : α → β} {o : Host.Outcome α φ ρ} {b : β} :
    onNext f o = .next b ↔ ∃ a, o = .next a ∧ f a = b := by
  cases o <;> simp [onNext]

section Platform

variable {p q : Platform} {k : Nat}

/-- One lemma for Sources and Sinks: `f` is the platform's number for the one or the other. -/
theorem not_nodup_map_of_getElem? {f : Attached → Nat} {i j : Nat} {x y : Attached} (hij : i ≠ j)
    (hx : p[i]? = some x) (hy : p[j]? = some y) (hf : f x = f y) : ¬ (p.map f).Nodup := by
  intro hnodup
  have hi : i < (p.map f).length := by
    rw [List.length_map]
    exact (List.getElem?_eq_some_iff.1 hx).1
  have heq : (p.map f)[i]? = (p.map f)[j]? := by
    rw [List.getElem?_map, List.getElem?_map, hx, hy, Option.map_some, Option.map_some, hf]
  exact hij ((List.getElem?_inj hi hnodup).1 heq)

theorem sharesStream_of_getElem? {i j : Nat} {x y : Attached} (hij : i ≠ j) (hx : p[i]? = some x)
    (hy : p[j]? = some y) (h : x.source = y.source ∨ x.sink = y.sink) : p.sharesStream = true := by
  obtain hsource | hsink := h
  · simp [Platform.sharesStream, not_nodup_map_of_getElem? hij hx hy hsource]
  · simp [Platform.sharesStream, not_nodup_map_of_getElem? hij hx hy hsink]

theorem platform_step_shared (h : p.sharesStream = true) : p.step k = .refused .sharedStream :=
  if_pos h

/-- What a step of the platform can do: the k-th block steps, and is put back in its place. -/
theorem platform_step_next (h : p.step k = .next q) : ∃ x t, p[k]? = some x ∧
    step x.block = .next t ∧ q = p.set k { x with block := t } := by
  unfold Platform.step at h
  split at h
  next => cases h
  next =>
    split at h
    next => cases h
    next x hx =>
      obtain ⟨t, ht, rfl⟩ := onNext_eq_next_iff.1 h
      exact ⟨x, t, hx, ht, rfl⟩

end Platform

/-- Settles O58, by `sharesStream_of_getElem?` and `platform_step_next`. -/
theorem blocksOfAPlatformAreIndependent : Obligations.BlocksOfAPlatformAreIndependent := by
  unfold Obligations.BlocksOfAPlatformAreIndependent
  refine fun p k => ⟨fun ⟨i, j, x, y, hij, hx, hy, h⟩ =>
    platform_step_shared (sharesStream_of_getElem? hij hx hy h), fun q h => ?_⟩
  obtain ⟨x, t, hx, ht, rfl⟩ := platform_step_next h
  have hk : k < p.length := (List.getElem?_eq_some_iff.1 hx).1
  exact ⟨fun j hj => List.getElem?_set_ne hj.symm, x, t, hx, ht, List.getElem?_set_self hk⟩

end Sys2Proof.Proofs
end

section
/-! PROOFS. The reset input (70_reset_and_hazards.md): a reset move resets the block in any phase (R114). -/

namespace Sys2Proof.Proofs

open Sys2Proof.Machine Sys2Proof.Statement

/-- The reset input is enabled whatever the block is doing: the equation has no hypothesis on the phase. -/
theorem step_reset {s : State} {rest : List Move} (hs : s.schedule = .reset :: rest) :
    step s = .next (resetBlock (setSchedule rest s)) :=
  step_of_schedule hs

/-- Settles O42: the next state is the reset block, whose registers its field lemmas read. -/
theorem resetInputRestoresTheResetValues : Obligations.ResetInputRestoresTheResetValues := by
  unfold Obligations.ResetInputRestoresTheResetValues
  intro s rest hs
  refine ⟨_, step_reset hs, ?_⟩
  simp only [resetBlock_phase, resetBlock_busy, resetBlock_code, resetBlock_count, resetBlock_cmdLost,
    resetBlock_err, resetBlock_operand, resetBlock_result, resetBlock_params, setSchedule_params,
    resetBlock_srcTaken, setSchedule_srcTaken, resetBlock_sinkStream, setSchedule_sinkStream, and_self]

end Sys2Proof.Proofs
end
